-- ==== Sys2Proof/Word.lean ====
section
/-! DEFINITION. The words and line levels of the block (spec 00_scope.md R9, R11). -/

namespace Sys2Proof

/-- The level of a line, or one flag: `true` is 1 and `false` is 0 (R11).
For a selector line 0 is the active level; for SCK 0 is idle. -/
abbrev Level := Bool

/-- A byte on the bus. -/
abbrev Byte := BitVec 8

/-- A 16-bit operand, TOP, TCNT, or the value in LAST. -/
abbrev Word16 := BitVec 16

/-- A command word (R70). -/
abbrev Word24 := BitVec 24

/-- RESULT, and the container of TICK and of a read's accumulator. -/
abbrev Word32 := BitVec 32

end Sys2Proof
end

