-- ==== Sys2Proof/Config.lean ====
section
/-! DEFINITION. The implementation parameters (spec 00_scope.md R7), the turns the agents take (R6), and the free
values: the constants without a body that stand for what the spec calls a draw or leaves open. -/

namespace Sys2Proof

/-- OVER_POLICY (R7, R173): what the encoder does with an input above 9999. -/
inductive OverPolicy where
  | fault
  | legacy
deriving DecidableEq, Repr

/-- DIGIT_STYLE (R7, R174): the byte sent for a numeric digit. -/
inductive DigitStyle where
  | binary
  | ascii
deriving DecidableEq, Repr

/-- The block's parameters (R7). TIMER_W is 16 on every block, so it is no field. -/
structure Params where
  /-- NSEL, the number of selector lines. -/
  nsel : Nat
  /-- RESULT_W, the width of the read accumulator. -/
  resultW : Nat
  /-- TICK_W, the width of TICK. -/
  tickW : Nat
  /-- OVER_POLICY. -/
  overPolicy : OverPolicy
  /-- DIGIT_STYLE. -/
  digitStyle : DigitStyle
  /-- BLANK_BYTE. -/
  blankByte : Byte
  /-- DP_MASK. -/
  dpMask : Byte
  /-- RENDER_CACHE_RESET. -/
  renderCacheReset : Option Word16
deriving DecidableEq, Repr

/-- The host's compile-time constants (R7, R8): REFRESH_HZ, STARTUP_TICKS and TICK_TOP. They have no default and no
register; whatever needs them takes them as an argument. -/
structure HostParams where
  refreshHz : Nat
  startupTicks : Nat
  tickTop : Word16
deriving DecidableEq, Repr

/-- What the host's read port shows (R34). -/
inductive Port where
  | result
  | fault
  | faultCmd
deriving DecidableEq, Repr

/-- One turn of the machine: which agent acts next (R6, R58), a read through the host's read port (R34), or power-on
(R242). A turn of an agent that is not enabled leaves the block as it is (log 3). -/
inductive Turn where
  | host
  | timerClk
  | tickService
  | readPort (p : Port)
  | powerOn
deriving DecidableEq, Repr, Inhabited

/-- Free value (log 2): the turns taken before the r-th turn that R153's fairness guarantees, where State's `schedule`
does not say (R58, R153, R212): any turns, any number of them. -/
opaque Config.freeTurns : Nat → List Turn

/-- The agent whose turn the r-th guaranteed turn is: each of HOST, TIMER and SERVICE again and again (R153; log 2). -/
def guaranteedTurn (r : Nat) : Turn :=
  match r % 3 with
  | 0 => .host
  | 1 => .timerClk
  | _ => .tickService

/-- The r-th round of the free schedule: free turns, and then the guaranteed one. Every infinite sequence of turns in
which each agent comes again and again is a sequence of such rounds, and no other is. -/
def freeRound (r : Nat) : List Turn := Config.freeTurns r ++ [guaranteedTurn r]

/-- Free value (log 6): the level of DIN at the n-th sample, where State's `dinInput` does not say (R27). -/
opaque Config.freeDin : Nat → Level

/-- Free value (log 4): the level of DOUT after the k-th power-on (R240, 'draw'). -/
opaque Config.resetDout : Nat → Level

/-- Free value (log 4): TICK after the k-th power-on, before it is cut to TICK_W bits (R240, 'draw'). -/
opaque Config.resetTick : Nat → Word32

/-- Free value (log 5): what RESULT's storage holds after the k-th power-on; RESULT has no value then (R35, R240). -/
opaque Config.resetResult : Nat → Word32

/-- Free value (log 9): BLANK_BYTE, an open parameter with no default (R7, R174). -/
opaque Config.blankByte : Byte

/-- The parameters this hardware takes: R7's defaults, and a free BLANK_BYTE. -/
def Params.hardware : Params where
  nsel := 2
  resultW := 16
  tickW := 32
  overPolicy := .fault
  digitStyle := .binary
  blankByte := Config.blankByte
  dpMask := 0x04
  renderCacheReset := none

end Sys2Proof
end

