-- ==== Sys2Proof/Syntax.lean ====
section
/-! DEFINITION. The commands, one constructor per row of spec/opcode_table.json (spec 30_encoding.md R73), and the
pseudo-commands (R77) and assembler lines (R76) that are written for them. -/

namespace Sys2Proof

/-- A command. Every field has exactly the width its encoding gives it (R71, R72), so every term is encodable. -/
inductive Instr where
  /-- BUS_WRITE sel, byte (R110). -/
  | busWrite (sel : BitVec 4) (byte : Byte)
  /-- BUS_READ sel, n (R111). -/
  | busRead (sel : BitVec 4) (n : Word16)
  /-- CS_ASSERT sel (R112). -/
  | csAssert (sel : BitVec 4)
  /-- CS_DEASSERT sel (R113). -/
  | csDeassert (sel : BitVec 4)
  /-- DATA_DRIVE b (R114). -/
  | dataDrive (b : Level)
  /-- CLK_SET b (R115). -/
  | clkSet (b : Level)
  /-- DATA_SAMPLE (R116). -/
  | dataSample
  /-- TICK_READ (R140). -/
  | tickRead
  /-- TICK_CLEAR (R141). -/
  | tickClear
  /-- WAIT (R142). -/
  | wait
  /-- IE_SET b (R143). -/
  | ieSet (b : Level)
  /-- TIMER_CFG top (R144). -/
  | timerCfg (top : Word16)
  /-- ENCODE number (R171). -/
  | encode (number : Word16)
  /-- RENDER number (R180). -/
  | render (number : Word16)
  /-- DISP_CLEAR (R182). -/
  | dispClear
deriving DecidableEq, Repr

/-- The mnemonics: the rows of R73's opcode map. -/
inductive Opcode where
  | busWrite | busRead | csAssert | csDeassert | dataDrive | clkSet | dataSample
  | tickRead | tickClear | wait | ieSet | timerCfg
  | encode | render | dispClear
deriving DecidableEq, Repr

/-- The pseudo-commands (R77). -/
inductive Pseudo where
  | pulse
  | ei
  | di
  | timerStop
  | readTc
  | assert (k : BitVec 4)
  | deassert (k : BitVec 4)
  | sample
deriving DecidableEq, Repr

/-- One assembler line, `MNEMONIC [sel ,] [operand]` (R76), with its numbers as written: a number need not fit yet. -/
structure AsmLine where
  op : Opcode
  sel : Nat
  operand : Nat
deriving DecidableEq, Repr

end Sys2Proof
end

