-- ==== Sys2Proof/WellFormed.lean ====
section
/-! DEFINITION. Which parameters, commands and assembler lines are well formed. A command's own fields always fit
their encoding; what can be wrong with it is a check that rests on the word and the parameters alone (spec
60_exceptions.md R207: 'Checks on the word itself come before the check on bus state'). -/

namespace Sys2Proof

/-- The ranges of R7. NSEL ≤ 16 because a selector number has four bits (R70, R57; log 11). -/
def Params.wf (p : Params) : Bool :=
  decide (2 ≤ p.nsel) && decide (p.nsel ≤ 16)
    && decide (16 ≤ p.resultW) && decide (p.resultW ≤ 32)
    && decide (16 ≤ p.tickW) && decide (p.tickW ≤ 32)
    && (match p.renderCacheReset with
        | none => true
        | some v => decide (v.toNat ≤ 9999))

/-- The ranges of R7 for the host's constants; REFRESH_HZ is a frequency, so it is not 0. -/
def HostParams.wf (h : HostParams) : Bool :=
  decide (h.refreshHz ≠ 0) && decide (h.tickTop ≠ 0)

/-- The word-only checks of a command: a selector that exists (R202), a bit count the accumulator can hold (R204), a
number in the encoder's range under the `fault` policy (R205). A command that fails one still decodes (R74), and its
issue raises the fault. -/
def Instr.wellFormed (p : Params) : Instr → Bool
  | .busWrite sel _ => decide (sel.toNat < p.nsel)
  | .busRead sel n => decide (sel.toNat < p.nsel) && decide (n.toNat ≤ p.resultW)
  | .csAssert sel => decide (sel.toNat < p.nsel)
  | .csDeassert sel => decide (sel.toNat < p.nsel)
  | .encode number => decide (number.toNat ≤ 9999) || decide (p.overPolicy = .legacy)
  | .render number => decide (number.toNat ≤ 9999) || decide (p.overPolicy = .legacy)
  | .dataDrive _ => true
  | .clkSet _ => true
  | .dataSample => true
  | .tickRead => true
  | .tickClear => true
  | .wait => true
  | .ieSet _ => true
  | .timerCfg _ => true
  | .dispClear => true

/-- How many values a mnemonic's `sel` field has (R71): a reserved-zero field has the one value 0. -/
def Opcode.selBound : Opcode → Nat
  | .busWrite => 16
  | .busRead => 16
  | .csAssert => 16
  | .csDeassert => 16
  | .dataDrive => 1
  | .clkSet => 1
  | .dataSample => 1
  | .tickRead => 1
  | .tickClear => 1
  | .wait => 1
  | .ieSet => 1
  | .timerCfg => 1
  | .encode => 1
  | .render => 1
  | .dispClear => 1

/-- How many values a mnemonic's operand field has (R72). -/
def Opcode.operandBound : Opcode → Nat
  | .busWrite => 256
  | .busRead => 65536
  | .csAssert => 1
  | .csDeassert => 1
  | .dataDrive => 2
  | .clkSet => 2
  | .dataSample => 1
  | .tickRead => 1
  | .tickClear => 1
  | .wait => 1
  | .ieSet => 2
  | .timerCfg => 65536
  | .encode => 65536
  | .render => 65536
  | .dispClear => 1

/-- A line's numbers fit their fields (R76: 'must fit its field'). -/
def AsmLine.wellFormed (l : AsmLine) : Bool :=
  decide (l.sel < l.op.selBound) && decide (l.operand < l.op.operandBound)

end Sys2Proof
end

