-- ==== Sys2Proof/Decode.lean ====
section
/-! DEFINITION. The opcode map and the decoder, written from the mask and match pairs (spec 30_encoding.md R73, R74),
then the encoder, the pseudo-commands (R77) and the words of an assembler line (R76). -/

namespace Sys2Proof

/-- A row of R73: a word selects it when its masked bits equal `pattern`. -/
structure OpRow where
  mask : Word24
  pattern : Word24
deriving DecidableEq, Repr

/-- R73's table. -/
def Opcode.row : Opcode → OpRow
  | .busWrite => ⟨0xF0FF00, 0x100000⟩
  | .busRead => ⟨0xF00000, 0x200000⟩
  | .csAssert => ⟨0xF0FFFF, 0x300000⟩
  | .csDeassert => ⟨0xF0FFFF, 0x400000⟩
  | .dataDrive => ⟨0xFFFFFE, 0x500000⟩
  | .clkSet => ⟨0xFFFFFE, 0x600000⟩
  | .dataSample => ⟨0xFFFFFF, 0x700000⟩
  | .tickRead => ⟨0xFFFFFF, 0x800000⟩
  | .tickClear => ⟨0xFFFFFF, 0x900000⟩
  | .wait => ⟨0xFFFFFF, 0xA00000⟩
  | .ieSet => ⟨0xFFFFFE, 0xB00000⟩
  | .timerCfg => ⟨0xFF0000, 0xC00000⟩
  | .encode => ⟨0xFF0000, 0xD00000⟩
  | .render => ⟨0xFF0000, 0xE00000⟩
  | .dispClear => ⟨0xFFFFFF, 0xF00000⟩

/-- The word `w` selects the row of `o` (R73: `(w & mask) = match`). -/
def Opcode.selectedBy (w : Word24) (o : Opcode) : Bool := (w &&& o.row.mask) == o.row.pattern

/-- The rows, in R73's order. -/
def Opcode.all : List Opcode :=
  [.busWrite, .busRead, .csAssert, .csDeassert, .dataDrive, .clkSet, .dataSample, .tickRead, .tickClear, .wait, .ieSet,
    .timerCfg, .encode, .render, .dispClear]

/-- The `op` field, w[23:20] (R70). -/
def opField (w : Word24) : BitVec 4 := w.extractLsb' 20 4

/-- The `sel` field, w[19:16] (R71). -/
def selField (w : Word24) : BitVec 4 := w.extractLsb' 16 4

/-- The whole operand, w[15:0] (R72). -/
def operandField (w : Word24) : Word16 := w.extractLsb' 0 16

/-- The byte operand, w[7:0] (R72). -/
def byteField (w : Word24) : Byte := w.extractLsb' 0 8

/-- The one-bit operand, w[0] (R72). -/
def bitField (w : Word24) : Level := w.getLsbD 0

/-- The operands of a word that selects a row (R71, R72). -/
def Opcode.operands (o : Opcode) (w : Word24) : Instr :=
  match o with
  | .busWrite => .busWrite (selField w) (byteField w)
  | .busRead => .busRead (selField w) (operandField w)
  | .csAssert => .csAssert (selField w)
  | .csDeassert => .csDeassert (selField w)
  | .dataDrive => .dataDrive (bitField w)
  | .clkSet => .clkSet (bitField w)
  | .dataSample => .dataSample
  | .tickRead => .tickRead
  | .tickClear => .tickClear
  | .wait => .wait
  | .ieSet => .ieSet (bitField w)
  | .timerCfg => .timerCfg (operandField w)
  | .encode => .encode (operandField w)
  | .render => .render (operandField w)
  | .dispClear => .dispClear

/-- Why a word is illegal (R74): it has op = 0, which no row has, or a reserved-zero bit is set. -/
inductive DecodeReject where
  | opZero
  | reservedBits
deriving DecidableEq, Repr

/-- What the decoder answers. -/
inductive Decoded where
  | instr (i : Instr)
  | illegal (why : DecodeReject)
deriving DecidableEq, Repr

/-- The decoder, total on any 24-bit word (R74): the row the word selects, and that row's operands. -/
def decode (w : Word24) : Decoded :=
  match Opcode.all.find? (Opcode.selectedBy w) with
  | some o => .instr (o.operands w)
  | none => .illegal (if opField w = 0 then .opZero else .reservedBits)

/-- The one format (R70): op, sel, operand. -/
def commandWord (op sel : BitVec 4) (operand : Word16) : Word24 := op ++ sel ++ operand

/-- The operand of a one-bit command: bits 15 to 1 are reserved-zero (R72). -/
def bitOperand (b : Level) : Word16 := (BitVec.ofBool b).setWidth 16

/-- The word of a command, from R73's encoding column, with the reserved bits of `sel` and the operand zero. -/
def encode : Instr → Word24
  | .busWrite sel byte => commandWord 0x1 sel (byte.setWidth 16)
  | .busRead sel n => commandWord 0x2 sel n
  | .csAssert sel => commandWord 0x3 sel 0
  | .csDeassert sel => commandWord 0x4 sel 0
  | .dataDrive b => commandWord 0x5 0 (bitOperand b)
  | .clkSet b => commandWord 0x6 0 (bitOperand b)
  | .dataSample => commandWord 0x7 0 0
  | .tickRead => commandWord 0x8 0 0
  | .tickClear => commandWord 0x9 0 0
  | .wait => commandWord 0xA 0 0
  | .ieSet b => commandWord 0xB 0 (bitOperand b)
  | .timerCfg top => commandWord 0xC 0 top
  | .encode number => commandWord 0xD 0 number
  | .render number => commandWord 0xE 0 number
  | .dispClear => commandWord 0xF 0 0

/-- The mnemonic of a command. -/
def Instr.opcode : Instr → Opcode
  | .busWrite _ _ => .busWrite
  | .busRead _ _ => .busRead
  | .csAssert _ => .csAssert
  | .csDeassert _ => .csDeassert
  | .dataDrive _ => .dataDrive
  | .clkSet _ => .clkSet
  | .dataSample => .dataSample
  | .tickRead => .tickRead
  | .tickClear => .tickClear
  | .wait => .wait
  | .ieSet _ => .ieSet
  | .timerCfg _ => .timerCfg
  | .encode _ => .encode
  | .render _ => .render
  | .dispClear => .dispClear

/-- The instruction the decoder reads from a table word of `nbits` bits (24 for every row; the host delivers a word
whole, R70, so there is no byte order to apply). -/
def decodeTableWord (nbits w : Nat) : Option Instr :=
  if nbits ≤ 24 ∧ w < 2 ^ 24 then
    match decode (BitVec.ofNat 24 w) with
    | .instr i => some i
    | .illegal _ => none
  else none

/-- THERMO, selector 0 (R24, R57). -/
def thermo : Nat := 0

/-- DISPLAY, selector 1 (R24, R57). -/
def display : Nat := 1

/-- Each pseudo-command is exactly this command sequence (R77). -/
def Pseudo.expand : Pseudo → List Instr
  | .pulse => [.clkSet true, .clkSet false]
  | .ei => [.ieSet true]
  | .di => [.ieSet false]
  | .timerStop => [.timerCfg 0]
  | .readTc => [.busRead (BitVec.ofNat 4 thermo) 14]
  | .assert k => [.csAssert k]
  | .deassert k => [.csDeassert k]
  | .sample => [.dataSample]

/-- The word of an assembler line (R76), where its numbers fit their fields. -/
def AsmLine.word (l : AsmLine) : Option Word24 :=
  if l.wellFormed then
    some (l.op.row.pattern ||| (BitVec.ofNat 24 l.sel <<< 16) ||| BitVec.ofNat 24 l.operand)
  else none

end Sys2Proof
end

