-- ==== Sys2Proof/Machine/Bits.lean ====
section
/-! DEFINITION. The two bit helpers the registers need (spec 00_scope.md R9): keeping the low bits of a word, and a
level as a word. -/

namespace Sys2Proof.Machine

/-- `trunc_w` of a value held in a 32-bit word: its low `w` bits (R9). Registers of a parameterised width (TICK, a
read's accumulator) are held so (log 8). -/
def truncTo (w : Nat) (v : Word32) : Word32 := BitVec.ofNat 32 (v.toNat % 2 ^ w)

/-- `zext_32` of one bit (R9). -/
def levelWord (b : Level) : Word32 := if b then 1 else 0

end Sys2Proof.Machine
end

