-- ==== Sys2Proof/Machine/State.lean ====
section
/-! DEFINITION. The state of the block as plain data (spec 10_state.md), its outcomes' reasons, and its reset values
(spec 70_reset_and_hazards.md R240). -/

namespace Sys2Proof.Machine

/-- A pin event of the bus trace (R28). -/
inductive PinEvent where
  /-- Line CS[k] driven to v. -/
  | cs (k : Nat) (v : Level)
  /-- SCK driven to v. -/
  | sck (v : Level)
  /-- DOUT driven to v. -/
  | dout (v : Level)
  /-- DIN read as b while selector k, or none, is active. -/
  | sample (k : Option Nat) (b : Level)
deriving DecidableEq, Repr

/-- SEQ.ph of a byte being written (R29): the micro-step that comes next in R110's procedure. -/
inductive WritePhase where
  | assert
  | data
  | clkHigh
  | clkLow
  | deassert
deriving DecidableEq, Repr

/-- SEQ.ph of a read (R29): the micro-step that comes next in R111's procedure. -/
inductive ReadPhase where
  | assert
  | clkHigh
  | sample
  | clkLow
  | deassert
deriving DecidableEq, Repr

/-- SEQ's fields while a byte is written (R29, R110): the selector, the byte, the bit index and the phase. -/
structure WriteJob where
  sel : Nat
  sr : Byte
  i : Nat
  ph : WritePhase
deriving DecidableEq, Repr

/-- SEQ's fields while bits are read (R29, R111). The accumulator's RESULT_W bits are the low bits of `acc` (log 8). -/
structure ReadJob where
  sel : Nat
  n : Nat
  i : Nat
  acc : Word32
  ph : ReadPhase
deriving DecidableEq, Repr

/-- SEQ (R29). The constructor is SEQ.op; a command whose effect is one micro-step never leaves SEQ.op. `number` is
the value RENDER stores into LAST at its end (R180; log 7). -/
inductive Seq where
  | idle
  | busWrite (job : WriteJob)
  | busRead (job : ReadJob)
  | wait
  | render (number : Word16) (bytes : List Byte) (kb : Nat) (job : WriteJob)
  | dispClear (bytes : List Byte) (kb : Nat) (job : WriteJob)
deriving DecidableEq, Repr

/-- The block's fault codes (R200). Their numbers are `FaultCode.code`. -/
inductive FaultCode where
  | illegalCommand
  | badSelector
  | busOverlap
  | invalidArgument
  | outOfRange
deriving DecidableEq, Repr

/-- The context the host issues a command from (R216, R232). -/
inductive HostContext where
  | main
  | interrupt
deriving DecidableEq, Repr

/-- One command word of the host's program (R233), and the context it is issued from. -/
structure HostCmd where
  context : HostContext
  word : Word24
deriving DecidableEq, Repr

/-- The state of the machine. -/
structure State where
  /-- The block's parameters (R7); no step changes them (log 1). -/
  params : Params
  /-- RESULT (R22, R23). -/
  result : Word32
  /-- Whether RESULT holds a value yet (R35). -/
  resultValid : Bool
  /-- FAULT (R22, R33). -/
  fault : BitVec 8
  /-- FAULT_CMD (R22, R33). -/
  faultCmd : Word24
  /-- GIE (R22, R26). -/
  gie : Bool
  /-- PEND (R22, R26). -/
  pend : Bool
  /-- SLEEP (R22, R26). -/
  sleep : Bool
  /-- TEN (R22, R26). -/
  ten : Bool
  /-- TOP (R22, R31). -/
  top : Word16
  /-- TCNT (R22, R31). -/
  tcnt : Word16
  /-- TICK's storage (R22, R30): the register is its low TICK_W bits, read through `tickValue` (log 8). -/
  tick : Word32
  /-- LAST (R22, R32): `none`, or the last input rendered in full. -/
  last : Option Word16
  /-- SCK (R24). -/
  sck : Level
  /-- DOUT (R24). -/
  dout : Level
  /-- CS[0] to CS[NSEL−1] (R24). -/
  cs : List Level
  /-- SEQ (R29). -/
  seq : Seq
  /-- The bus trace (R28), oldest event first: the spec's observation, not hardware. -/
  trace : List PinEvent
  /-- Input: the commands the host has still to issue, in order (R233; log 10). -/
  program : List HostCmd
  /-- Input: the turns already fixed; where it is empty, the next round is free (R58, R153; log 2). -/
  schedule : List Turn
  /-- The number of free rounds begun: the argument of Config.freeTurns (log 2). -/
  rounds : Nat
  /-- Input: the DIN answers already fixed; where it is empty, samples are free (R27; log 6). -/
  dinInput : List Level
  /-- The number of samples taken: the argument of Config.freeDin (log 6). -/
  draws : Nat
  /-- The number of power-ons so far: the argument of the reset draws (R240; log 4). -/
  powerOns : Nat
deriving DecidableEq, Repr

/-- What the host's read port answers (R34, R35). -/
inductive ReadAnswer where
  /-- The read shows the register's value (R34). -/
  | value (v : Word32)
  /-- The read is refused as a fault: R35's answer to a read of RESULT from reset until the first result-producing
  command has completed. No fault code is written, and the block goes on (93_implementation_defined.md I5; log 5). -/
  | fault
deriving DecidableEq, Repr

/-- Why the machine stops with a fault: nothing does. The block's own faults (R200) are codes in FAULT, and stop HOST
alone; R35's fault is an answer of the read port (`ReadAnswer.fault`). -/
inductive Fault where
deriving DecidableEq, Repr

/-- What the machine refuses to give a meaning. -/
inductive Refusal where
  /-- Raised by a dispatch arm without a meaning. No arm raises it. Safe. -/
  | notModelled (mnemonic : String)
  /-- Raised when the host issues a command from interrupt context (R232 'A model refuses a program that issues
  commands from interrupt context'). Safe: nothing is claimed of such a program. -/
  | interruptContextCommand
deriving DecidableEq, Repr

/-- The block right after its k-th power-on (R240), with nothing listed for the host, the schedule or the device. -/
def State.powerUp (p : Params) (k : Nat) : State where
  params := p
  result := Config.resetResult k
  resultValid := false
  fault := 0
  faultCmd := 0
  gie := false
  pend := false
  sleep := false
  ten := false
  top := 0
  tcnt := 0
  tick := truncTo p.tickW (Config.resetTick k)
  last := p.renderCacheReset
  sck := false
  dout := Config.resetDout k
  cs := List.replicate p.nsel true
  seq := .idle
  trace := []
  program := []
  schedule := []
  rounds := 0
  dinInput := []
  draws := 0
  powerOns := k + 1

/-- The machine right after reset: this hardware's parameters (R7), at its first power-on (R240). -/
def State.reset : State := State.powerUp Params.hardware 0

end Sys2Proof.Machine
end

