-- ==== Sys2Proof/Machine/Flags.lean ====
section
/-! DEFINITION. The conditions the agents and commands test, and the fault codes (spec 10_state.md R25, R26;
41_bus.md §1; 42_tick.md §2; 43_encoder.md R172; 60_exceptions.md R200, R211). -/

namespace Sys2Proof.Machine

/-- The number written into FAULT (R200). -/
def FaultCode.code : FaultCode → BitVec 8
  | .illegalCommand => 1
  | .badSelector => 2
  | .busOverlap => 3
  | .invalidArgument => 4
  | .outOfRange => 5

/-- `busy()` of 41_bus.md: some selector line is 0. -/
def State.busy (s : State) : Bool := s.cs.contains false

/-- `active()` of 41_bus.md: the selector whose line is 0, or none. -/
def State.active (s : State) : Option Nat := s.cs.findIdx? (fun level => level == false)

/-- HOST may issue a command: SEQ.op = IDLE and FAULT = 0 (R201). -/
def State.canIssue (s : State) : Bool := decide (s.seq = .idle) && decide (s.fault = 0)

/-- TIMER_CLK is enabled exactly when TEN = 1 (R150). -/
def State.timerEnabled (s : State) : Bool := s.ten

/-- TICK_SERVICE is enabled exactly when PEND = 1 and GIE = 1 (R152, R211). -/
def State.serviceEnabled (s : State) : Bool := s.pend && s.gie

/-- The next TIMER_CLK is a roll-over: TCNT = TOP − 1 (R150). -/
def State.rollsOver (s : State) : Bool := decide (s.tcnt = s.top - 1)

/-- HOST is held in WAIT (R142: hold until SLEEP = 0). -/
def State.heldInWait (s : State) : Bool := decide (s.seq = .wait) && s.sleep

/-- HOST has a step: no fault stands, and it has a command to issue or one in progress that is not held (R201, R142). -/
def State.hostEnabled (s : State) : Bool :=
  decide (s.fault = 0) && (if s.seq = .idle then !s.program.isEmpty else !s.heldInWait)

/-- The agent whose turn `t` is has a step (R201, R150, R152). -/
def State.enabled (t : Turn) (s : State) : Bool :=
  match t with
  | .host => s.hostEnabled
  | .timerClk => s.timerEnabled
  | .tickService => s.serviceEnabled
  | .readPort _ => false
  | .powerOn => false

/-- `blank3` of R172, from the digits. -/
def blank3 (d3 : Nat) : Bool := decide (d3 = 0)

/-- `blank2` of R172, from the digits. -/
def blank2 (d3 d2 : Nat) : Bool := decide (d3 = 0) && decide (d2 = 0)

end Sys2Proof.Machine
end

