-- ==== Sys2Proof/Machine/Operands.lean ====
section
/-! DEFINITION. What the commands compute from their operands and the parameters: the operand checks (spec
60_exceptions.md R202, R204, R205), the digits and their packing (43_encoder.md R170, R171), and the display bytes
(30_encoding.md R80, R81; 43_encoder.md R174, R181). -/

namespace Sys2Proof.Machine

/-- The selector operand names a line (R71, R102): sel < NSEL. -/
def selectorExists (p : Params) (sel : BitVec 4) : Bool := decide (sel.toNat < p.nsel)

/-- The bit count fits the accumulator (R111, R204): n ≤ RESULT_W. -/
def countFits (p : Params) (n : Word16) : Bool := decide (n.toNat ≤ p.resultW)

/-- The number is refused by the encoder (R173, R205): above 9999 under OVER_POLICY = fault. -/
def overRange (p : Params) (number : Word16) : Bool :=
  decide (9999 < number.toNat) && decide (p.overPolicy = .fault)

/-- The four decimal digits of R170. -/
structure Digits where
  d3 : Nat
  d2 : Nat
  d1 : Nat
  d0 : Nat
deriving DecidableEq, Repr

/-- R170's digit extraction; for m ≥ 10000 these are the digits of m mod 10000. -/
def digits (m : Nat) : Digits where
  d3 := m / 1000 % 10
  d2 := m / 100 % 10
  d1 := m / 10 % 10
  d0 := m % 10

/-- ENCODE's result word (R171): blank3 ++ blank2 ++ d3 ++ d2 ++ d1 ++ d0, zero-extended to 32 bits. -/
def packDigits (d : Digits) : Word32 :=
  0#14 ++ BitVec.ofBool (blank3 d.d3) ++ BitVec.ofBool (blank2 d.d3 d.d2) ++ BitVec.ofNat 4 d.d3 ++ BitVec.ofNat 4 d.d2
    ++ BitVec.ofNat 4 d.d1 ++ BitVec.ofNat 4 d.d0

/-- `dbyte(d, blank)` of R174. -/
def dbyte (p : Params) (d : Nat) (blank : Bool) : Byte :=
  if blank then p.blankByte
  else
    match p.digitStyle with
    | .binary => BitVec.ofNat 8 d
    | .ascii => 0x30 + BitVec.ofNat 8 d

/-- The display's command bytes (R80). -/
def dispReset : Byte := 0x76

/-- DECIMAL (R80). -/
def dispDecimal : Byte := 0x77

/-- BRIGHTNESS (R80); the block never sends it itself. -/
def dispBrightness : Byte := 0x7A

/-- DIGIT1 to DIGIT4 (R80), for j = 0 to 3; the block never sends them itself. -/
def dispDigit (j : Fin 4) : Byte := 0x7B + BitVec.ofNat 8 j.val

/-- The seven bytes of a render (R180, R181). -/
def renderBytes (p : Params) (number : Word16) : List Byte :=
  let d := digits number.toNat
  [dispReset, dispDecimal, p.dpMask, dbyte p d.d3 (blank3 d.d3), dbyte p d.d2 (blank2 d.d3 d.d2), dbyte p d.d1 false,
    dbyte p d.d0 false]

/-- The bytes of a display clear (R182). -/
def clearBytes : List Byte := [dispReset]

end Sys2Proof.Machine
end

