-- ==== Sys2Proof/Machine/Ops.lean ====
section
/-! DEFINITION. The shared operations: one per line of the block (spec 10_state.md R24, R28), the write of RESULT
(R23, R35), a draw of DIN (R27), RAISING A FAULT as one operation (60_exceptions.md R201), and the micro-steps of a
command in progress (R29; 41_bus.md R110, R111; 42_tick.md R142; 43_encoder.md R180, R182). A fault has no return: only
power-on clears it (R33, R242). -/

namespace Sys2Proof.Machine

/-! ### Lines, RESULT and DIN -/

/-- `CS[k] <- v ; emit(CS(k, v))`. A level that does not change is still recorded (R28). -/
def setCs (k : Nat) (v : Level) (s : State) : State :=
  { s with cs := s.cs.set k v, trace := s.trace ++ [.cs k v] }

/-- `SCK <- v ; emit(SCK(v))`. -/
def setClock (v : Level) (s : State) : State :=
  { s with sck := v, trace := s.trace ++ [.sck v] }

/-- `DOUT <- v ; emit(DOUT(v))`. -/
def driveData (v : Level) (s : State) : State :=
  { s with dout := v, trace := s.trace ++ [.dout v] }

/-- The level `sample()` draws (R27): the next answer fixed for DEVICE, or a free one. -/
def State.din (s : State) : Level := s.dinInput.headD (Config.freeDin s.draws)

/-- `b <- sample() ; emit(SAMPLE(k, b))`: the draw is used up, so the next sample is a new draw (R56). -/
def sampleDin (k : Option Nat) (s : State) : State :=
  { s with
    dinInput := s.dinInput.tail
    draws := s.draws + 1
    trace := s.trace ++ [.sample k s.din] }

/-- `RESULT <- v` (R23); RESULT holds a value from now on (R35). -/
def writeResult (v : Word32) (s : State) : State :=
  { s with result := v, resultValid := true }

/-- The TICK register: TICK_W bits (R30). -/
def State.tickValue (s : State) : Word32 := truncTo s.params.tickW s.tick

/-- `TICK <- v`, cut to TICK_W bits (R30). -/
def writeTick (v : Word32) (s : State) : State :=
  { s with tick := truncTo s.params.tickW v }

/-! ### Raising a fault -/

/-- `raise Fault(c)` for the command word `w` (R201): FAULT and FAULT_CMD are written if no fault stands, SEQ goes to
IDLE, and nothing else changes. HOST has no step from here. -/
def raiseFault (c : FaultCode) (w : Word24) (s : State) : State :=
  if s.fault = 0 then { s with fault := c.code, faultCmd := w, seq := .idle }
  else { s with seq := .idle }

/-! ### The micro-steps of a write (R110) -/

/-- A byte's write before its first micro-step: `SEQ <- (sel, sr)`. -/
def WriteJob.start (sel : Nat) (byte : Byte) : WriteJob where
  sel := sel
  sr := byte
  i := 7
  ph := .assert

/-- One micro-step of a byte's write (R110), and what is left of it: none after the selector's de-assertion. -/
def writeMicro (j : WriteJob) (s : State) : State × Option WriteJob :=
  match j.ph with
  | .assert => (setCs j.sel false s, some { j with i := 7, ph := .data })
  | .data => (driveData (j.sr.getLsbD j.i) s, some { j with ph := .clkHigh })
  | .clkHigh => (setClock true s, some { j with ph := .clkLow })
  | .clkLow =>
    match j.i with
    | 0 => (setClock false s, some { j with ph := .deassert })
    | i + 1 => (setClock false s, some { j with i := i, ph := .data })
  | .deassert => (setCs j.sel true s, none)

/-! ### The micro-steps of a read (R111) -/

/-- A read before its first micro-step: `SEQ <- (sel, n, acc = 0)`. -/
def ReadJob.start (sel n : Nat) : ReadJob where
  sel := sel
  n := n
  i := 0
  acc := 0
  ph := .assert

/-- The accumulator after one more bit (R111): shifted left in RESULT_W bits, with the sample as its lowest bit. -/
def accumulate (p : Params) (acc : Word32) (b : Level) : Word32 :=
  truncTo p.resultW ((acc <<< 1) ||| levelWord b)

/-- The bit loop of a read with `k` bits still to read: the next clock pulse, or the de-assertion after the last. -/
def ReadJob.nextBit (j : ReadJob) : Nat → ReadJob
  | 0 => { j with i := 0, ph := .deassert }
  | k + 1 => { j with i := k, ph := .clkHigh }

/-- One micro-step of a read (R111), and what is left of it. The last one writes RESULT. -/
def readMicro (j : ReadJob) (s : State) : State × Option ReadJob :=
  match j.ph with
  | .assert => (setCs j.sel false s, some (j.nextBit j.n))
  | .clkHigh => (setClock true s, some { j with ph := .sample })
  | .sample =>
    (sampleDin (some j.sel) s, some { j with acc := accumulate s.params j.acc s.din, ph := .clkLow })
  | .clkLow => (setClock false s, some (j.nextBit j.i))
  | .deassert => (writeResult (truncTo s.params.resultW j.acc) (setCs j.sel true s), none)

/-! ### The micro-steps of a byte sequence to the display (R180, R182) -/

/-- One micro-step of a sequence of bytes written to the display: the byte in progress goes on; after it comes the
next byte; after the last one, in the same micro-step as its de-assertion, LAST is written and SEQ goes to IDLE.
`resume` puts the sequence's own SEQ.op back (log 7). -/
def streamMicro (resume : Nat → WriteJob → Seq) (lastAfter : Option Word16) (bytes : List Byte) (kb : Nat)
    (j : WriteJob) (s : State) : State :=
  match writeMicro j s with
  | (s', some j') => { s' with seq := resume kb j' }
  | (s', none) =>
    match bytes[kb + 1]? with
    | some b => { s' with seq := resume (kb + 1) (WriteJob.start display b) }
    | none => { s' with last := lastAfter, seq := .idle }

/-! ### The command in progress -/

/-- One HOST micro-step of the command SEQ holds. With SEQ idle there is none. In WAIT, HOST is held while SLEEP = 1
and then resumes (R142). -/
def continueCommand (s : State) : State :=
  match s.seq with
  | .idle => s
  | .busWrite j =>
    match writeMicro j s with
    | (s', some j') => { s' with seq := .busWrite j' }
    | (s', none) => { s' with seq := .idle }
  | .busRead j =>
    match readMicro j s with
    | (s', some j') => { s' with seq := .busRead j' }
    | (s', none) => { s' with seq := .idle }
  | .wait => if s.sleep then s else { s with seq := .idle }
  | .render number bytes kb j => streamMicro (Seq.render number bytes) (some number) bytes kb j s
  | .dispClear bytes kb j => streamMicro (Seq.dispClear bytes) none bytes kb j s

/-- A command of several micro-steps begins: SEQ takes it, and its first micro-step runs. -/
def beginCommand (q : Seq) (s : State) : State := continueCommand { s with seq := q }

end Sys2Proof.Machine
end

