-- ==== Sys2Proof/Machine/Bus.lean ====
section
/-! DEFINITION. The bus family (spec 41_bus.md). Each meaning is the issue of the command: its checks, in R207's
order, and its first micro-step. -/

namespace Sys2Proof.Machine

/-- BUS_WRITE (R110). -/
def execBusWrite (sel : BitVec 4) (byte : Byte) (s : State) : Host.Outcome State Fault Refusal :=
  if !selectorExists s.params sel then .next (raiseFault .badSelector (encode (.busWrite sel byte)) s)
  else if s.busy then .next (raiseFault .busOverlap (encode (.busWrite sel byte)) s)
  else .next (beginCommand (.busWrite (WriteJob.start sel.toNat byte)) s)

/-- BUS_READ (R111). -/
def execBusRead (sel : BitVec 4) (n : Word16) (s : State) : Host.Outcome State Fault Refusal :=
  if !selectorExists s.params sel then .next (raiseFault .badSelector (encode (.busRead sel n)) s)
  else if !countFits s.params n then .next (raiseFault .invalidArgument (encode (.busRead sel n)) s)
  else if s.busy then .next (raiseFault .busOverlap (encode (.busRead sel n)) s)
  else .next (beginCommand (.busRead (ReadJob.start sel.toNat n.toNat)) s)

/-- CS_ASSERT (R112). -/
def execCsAssert (sel : BitVec 4) (s : State) : Host.Outcome State Fault Refusal :=
  if !selectorExists s.params sel then .next (raiseFault .badSelector (encode (.csAssert sel)) s)
  else if s.busy then .next (raiseFault .busOverlap (encode (.csAssert sel)) s)
  else .next (setCs sel.toNat false s)

/-- CS_DEASSERT (R113): no overlap check. -/
def execCsDeassert (sel : BitVec 4) (s : State) : Host.Outcome State Fault Refusal :=
  if !selectorExists s.params sel then .next (raiseFault .badSelector (encode (.csDeassert sel)) s)
  else .next (setCs sel.toNat true s)

/-- DATA_DRIVE (R114). -/
def execDataDrive (b : Level) (s : State) : Host.Outcome State Fault Refusal :=
  .next (driveData b s)

/-- CLK_SET (R115). -/
def execClkSet (b : Level) (s : State) : Host.Outcome State Fault Refusal :=
  .next (setClock b s)

/-- DATA_SAMPLE (R116): the sample is recorded under the selector that is active, if one is. -/
def execDataSample (s : State) : Host.Outcome State Fault Refusal :=
  .next (writeResult (levelWord s.din) (sampleDin s.active s))

end Sys2Proof.Machine
end

