-- ==== Sys2Proof/Machine/Encoder.lean ====
section
/-! DEFINITION. The encoder family (spec 43_encoder.md). -/

namespace Sys2Proof.Machine

/-- ENCODE (R171). -/
def execEncode (number : Word16) (s : State) : Host.Outcome State Fault Refusal :=
  if overRange s.params number then .next (raiseFault .outOfRange (encode (.encode number)) s)
  else .next (writeResult (packDigits (digits number.toNat)) s)

/-- RENDER (R180): the range check, then change suppression, then the overlap check, then the seven writes. -/
def execRender (number : Word16) (s : State) : Host.Outcome State Fault Refusal :=
  if overRange s.params number then .next (raiseFault .outOfRange (encode (.render number)) s)
  else if s.last = some number then .next s
  else if s.busy then .next (raiseFault .busOverlap (encode (.render number)) s)
  else .next (beginCommand
    (.render number (renderBytes s.params number) 0 (WriteJob.start display dispReset)) s)

/-- DISP_CLEAR (R182). -/
def execDispClear (s : State) : Host.Outcome State Fault Refusal :=
  if s.busy then .next (raiseFault .busOverlap (encode .dispClear) s)
  else .next (beginCommand (.dispClear clearBytes 0 (WriteJob.start display dispReset)) s)

end Sys2Proof.Machine
end

