-- ==== Sys2Proof/Machine/Tick.lean ====
section
/-! DEFINITION. The tick family (spec 42_tick.md): the five commands, and the two events of the TIMER and SERVICE
agents. The tick interrupt's entry and return are TICK_SERVICE itself (60_exceptions.md R213, R214). -/

namespace Sys2Proof.Machine

/-- TICK_READ (R140): one micro-step, so the value is never torn (R55). -/
def execTickRead (s : State) : Host.Outcome State Fault Refusal :=
  .next (writeResult s.tickValue s)

/-- TICK_CLEAR (R141). -/
def execTickClear (s : State) : Host.Outcome State Fault Refusal :=
  .next (writeTick 0 s)

/-- WAIT (R142), micro-step 1. -/
def execWait (s : State) : Host.Outcome State Fault Refusal :=
  .next { s with sleep := true, seq := .wait }

/-- IE_SET (R143). -/
def execIeSet (b : Level) (s : State) : Host.Outcome State Fault Refusal :=
  .next { s with gie := b }

/-- TIMER_CFG (R144). -/
def execTimerCfg (top : Word16) (s : State) : Host.Outcome State Fault Refusal :=
  .next { s with top := top, tcnt := 0, ten := decide (top ≠ 0) }

/-- TIMER_CLK (R150): where TEN = 1, TCNT advances modulo TOP, and a roll-over sets PEND; a roll-over while PEND = 1 is
lost (R151). Where TEN = 0 the agent has no step (log 3). -/
def timerClk (s : State) : State :=
  if s.timerEnabled then
    if s.rollsOver then { s with tcnt := 0, pend := true }
    else { s with tcnt := s.tcnt + 1 }
  else s

/-- TICK_SERVICE (R152): where PEND = 1 and GIE = 1, TICK advances by one modulo 2^TICK_W, HOST is woken, and PEND is
cleared, in one step. Where it is not enabled the agent has no step (log 3). -/
def tickService (s : State) : State :=
  if s.serviceEnabled then { writeTick (s.tickValue + 1) s with sleep := false, pend := false }
  else s

end Sys2Proof.Machine
end

