-- ==== Sys2Proof/Machine/Dispatch.lean ====
section
/-! DEFINITION. One arm per command. -/

namespace Sys2Proof.Machine

def exec (i : Instr) (s : State) : Host.Outcome State Fault Refusal :=
  match i with
  | .busWrite sel byte => Sys2Proof.Machine.execBusWrite sel byte s
  | .busRead sel n => Sys2Proof.Machine.execBusRead sel n s
  | .csAssert sel => Sys2Proof.Machine.execCsAssert sel s
  | .csDeassert sel => Sys2Proof.Machine.execCsDeassert sel s
  | .dataDrive b => Sys2Proof.Machine.execDataDrive b s
  | .clkSet b => Sys2Proof.Machine.execClkSet b s
  | .dataSample => Sys2Proof.Machine.execDataSample s
  | .tickRead => Sys2Proof.Machine.execTickRead s
  | .tickClear => Sys2Proof.Machine.execTickClear s
  | .wait => Sys2Proof.Machine.execWait s
  | .ieSet b => Sys2Proof.Machine.execIeSet b s
  | .timerCfg top => Sys2Proof.Machine.execTimerCfg top s
  | .encode number => Sys2Proof.Machine.execEncode number s
  | .render number => Sys2Proof.Machine.execRender number s
  | .dispClear => Sys2Proof.Machine.execDispClear s

end Sys2Proof.Machine
end

