-- ==== Sys2Proof/Machine/Turns.lean ====
section
/-! DEFINITION. One turn of each agent (spec 00_scope.md R6; 60_exceptions.md R201, R212): HOST issuing a command or
running a micro-step of the one in progress, TIMER, SERVICE, the host's read port (10_state.md R34), and power-on
(70_reset_and_hazards.md R240, R242). -/

namespace Sys2Proof.Machine

/-- `issue(w)` (R201), HOST being free to issue: decode once, fault on an illegal word before any effect, else run the
command. A command from interrupt context is refused (R232). -/
def issue (c : HostCmd) (s : State) : Host.Outcome State Fault Refusal :=
  match c.context with
  | .interrupt => .refused .interruptContextCommand
  | .main =>
    match decode c.word with
    | .illegal _ => .next (raiseFault .illegalCommand c.word s)
    | .instr i => exec i s

/-- HOST's turn. With FAULT ≠ 0 HOST has no step (R201). With SEQ idle it issues the next command of its program, if
there is one; else it runs one micro-step of the command in progress. -/
def hostTurn (s : State) : Host.Outcome State Fault Refusal :=
  if s.fault ≠ 0 then .next s
  else
    match s.seq with
    | .idle =>
      match s.program with
      | [] => .next s
      | c :: rest => issue c { s with program := rest }
    | _ => .next (continueCommand s)

/-- What the host's read port answers (R34). From reset until the first result command completes, a read of RESULT is
answered as a fault (R35, R240; 93_implementation_defined.md I5). -/
def readPort (p : Port) (s : State) : ReadAnswer :=
  match p with
  | .result => if s.resultValid then .value s.result else .fault
  | .fault => .value (s.fault.setWidth 32)
  | .faultCmd => .value (s.faultCmd.setWidth 32)

/-- A turn of the read port. Whatever the answer, the read has no side effect (R34, R56), and a refused one writes no
fault code (93_implementation_defined.md I5): the block goes on (log 5). -/
def readTurn (_ : Port) (s : State) : State := s

/-- Power-on (R240, R242): the block takes its reset values, with new draws. What is outside the block (the host's
program, the schedule, the device's answers) goes on. -/
def powerOn (s : State) : State :=
  { State.powerUp s.params s.powerOns with
    program := s.program
    schedule := s.schedule
    rounds := s.rounds
    dinInput := s.dinInput
    draws := s.draws }

/-- The effect of one turn. -/
def takeTurn (t : Turn) (s : State) : Host.Outcome State Fault Refusal :=
  match t with
  | .host => hostTurn s
  | .timerClk => .next (timerClk s)
  | .tickService => .next (tickService s)
  | .readPort p => .next (readTurn p s)
  | .powerOn => .next (powerOn s)

/-- The turns that come next: those fixed, or else the next free round (R58, R153, R212). -/
def State.comingTurns (s : State) : List Turn :=
  match s.schedule with
  | [] => freeRound s.rounds
  | t :: ts => t :: ts

/-- Whose turn it is. There is always one; a round is never empty. -/
def State.nextTurn (s : State) : Turn := s.comingTurns.headD (guaranteedTurn s.rounds)

/-- The turn is used up. -/
def State.advance (s : State) : State :=
  { s with
    schedule := s.comingTurns.tail
    rounds := if s.schedule.isEmpty then s.rounds + 1 else s.rounds }

/-- A command word placed where HOST issues its next command, with HOST's turn next. -/
def placeWord (w : Word24) (s : State) : State :=
  { s with
    fault := 0
    seq := .idle
    program := { context := .main, word := w } :: s.program
    schedule := .host :: s.schedule }

end Sys2Proof.Machine
end

