-- ==== Sys2Proof/Machine/Step.lean ====
section
/-! DEFINITION. One step: one turn of one agent, atomic on the one shared state (spec 20_memory.md R58). -/

namespace Sys2Proof.Machine

/-- The step: the next turn is used up and takes its effect. -/
def step (s : State) : Host.Outcome State Fault Refusal := takeTurn s.nextTurn s.advance

/-- `s` with the command word `w` as the next one HOST issues, and HOST's turn next (log 10). A command is 24 bits
and delivered whole (R70), so `nbits` only bounds the bits that count. -/
def State.withFetchWord (s : State) (nbits w : Nat) : State :=
  placeWord (BitVec.ofNat 24 (w % 2 ^ nbits)) s

end Sys2Proof.Machine
end

