-- ==== Sys2Proof/Machine/Assembler.lean ====
section
/-! DEFINITION. Reading one assembler line `MNEMONIC [sel ,] [operand]` (spec 30_encoding.md R76). An omitted field is
0; a number is decimal or `0x` hexadecimal and must fit its field (log 19). -/

namespace Sys2Proof.Machine

/-- The digits of both bases of R76, in the order of their values. -/
def digitChars : List Char := "0123456789abcdef".toList

/-- A digit's value in a base: its place among the base's digits, in either case. -/
def digitValue (base : Nat) (c : Char) : Option Nat := (digitChars.take base).idxOf? c.toLower

/-- The digits of a number in a base, most significant first, after the value read so far. -/
def numberFrom (base acc : Nat) : List Char → Option Nat
  | [] => some acc
  | c :: cs => (digitValue base c).bind fun d => numberFrom base (acc * base + d) cs

/-- A decimal number, or a `0x` hexadecimal number (R76). -/
def number : List Char → Option Nat
  | [] => none
  | ['0', 'x'] => none
  | '0' :: 'x' :: cs => numberFrom 16 0 cs
  | cs => numberFrom 10 0 cs

/-- A selector as written (R76): THERMO, DISPLAY, or a decimal number. -/
def selectorName (cs : List Char) : Option Nat :=
  if cs = "THERMO".toList then some thermo
  else if cs = "DISPLAY".toList then some display
  else if cs = [] then none
  else numberFrom 10 0 cs

/-- The mnemonics as R73's table spells them. -/
def mnemonic : Opcode → String
  | .busWrite => "BUS_WRITE"
  | .busRead => "BUS_READ"
  | .csAssert => "CS_ASSERT"
  | .csDeassert => "CS_DEASSERT"
  | .dataDrive => "DATA_DRIVE"
  | .clkSet => "CLK_SET"
  | .dataSample => "DATA_SAMPLE"
  | .tickRead => "TICK_READ"
  | .tickClear => "TICK_CLEAR"
  | .wait => "WAIT"
  | .ieSet => "IE_SET"
  | .timerCfg => "TIMER_CFG"
  | .encode => "ENCODE"
  | .render => "RENDER"
  | .dispClear => "DISP_CLEAR"

/-- The mnemonic these characters spell, of R73's fifteen. R76 and R77 do not say whether a line may be a pseudo-command.
DESIGN CHOICE (log 19): it may not, so `assemble "EI"` is none; a pseudo-command is expanded by `Pseudo.expand` (R77). -/
def mnemonicOf (cs : List Char) : Option Opcode := Opcode.all.find? fun o => (mnemonic o).toList == cs

/-- Whether a mnemonic takes a selector (R71). -/
def takesSelector (o : Opcode) : Bool := decide (1 < o.selBound)

/-- The characters up to a blank, and those after the blanks. -/
def splitWord (cs : List Char) : List Char × List Char :=
  (cs.takeWhile (fun c => c != ' '), (cs.dropWhile (fun c => c != ' ')).dropWhile (fun c => c == ' '))

/-- The characters without the blanks at either end. -/
def trimBlanks (cs : List Char) : List Char :=
  ((cs.dropWhile fun c => c == ' ').reverse.dropWhile fun c => c == ' ').reverse

/-- A number that may be omitted (R76: 'Omitted fields are 0'). -/
def numberOrZero (cs : List Char) : Option Nat := if cs = [] then some 0 else number cs

/-- The two fields of a line whose mnemonic is `o` (R76): the selector with its comma may be left out. R76 brackets
`[sel ,]` for every mnemonic and leaves the rest open. DESIGN CHOICE (log 19): a command whose sel is reserved zero takes
no selector field, not even an explicit 0 (`RENDER 0, 1234` is unreadable); a command without an operand takes its
selector alone, and an explicit operand 0 after the comma; a comma needs a selector before it, and nothing after it is
an omitted operand. -/
def readFields (o : Opcode) (cs : List Char) : Option (Nat × Nat) :=
  if takesSelector o = false then (numberOrZero cs).map fun v => (0, v)
  else if cs.contains ',' then
    match selectorName (trimBlanks (cs.takeWhile fun c => c != ',')),
      numberOrZero (trimBlanks ((cs.dropWhile fun c => c != ',').drop 1)) with
    | some k, some v => some (k, v)
    | _, _ => none
  else if cs ≠ [] ∧ o.operandBound = 1 then (selectorName cs).map fun k => (k, 0)
  else (numberOrZero cs).map fun v => (0, v)

/-- One assembler line (R76). -/
def readLine (line : String) : Option AsmLine :=
  let (name, rest) := splitWord (trimBlanks line.toList)
  match mnemonicOf name with
  | none => none
  | some o => (readFields o (trimBlanks rest)).map fun (k, v) => { op := o, sel := k, operand := v }

/-- The word of an assembler line (R76), where its numbers fit. -/
def assemble (line : String) : Option Word24 := (readLine line).bind AsmLine.word

end Sys2Proof.Machine
end

