-- ==== Sys2Proof/Machine/Device.lean ====
section
/-! DEFINITION. The device's view of the lines (spec 41_bus.md R103), read off the pin events. What a device does with
the bits it latches is the device's (60_exceptions.md R218). -/

namespace Sys2Proof.Machine

/-- The bits the devices latch over a run of pin events, with the selector that latches each (R103): at each change of
SCK from 0 to 1 the selected device latches the DOUT level of that moment. `sck`, `dout` and `sel` are the lines before
the first event. No other edge has a meaning. -/
def deviceLatches (sck dout : Level) (sel : Option Nat) : List PinEvent → List (Nat × Level)
  | [] => []
  | .cs k false :: es => deviceLatches sck dout (some k) es
  | .cs k true :: es => deviceLatches sck dout (if sel = some k then none else sel) es
  | .dout v :: es => deviceLatches sck v sel es
  | .sck v :: es =>
    match sel with
    | some k => (if v && !sck then [(k, dout)] else []) ++ deviceLatches v dout sel es
    | none => deviceLatches v dout sel es
  | .sample _ _ :: es => deviceLatches sck dout sel es

end Sys2Proof.Machine
end

