-- ==== Sys2Proof/Machine/Scheduler.lean ====
section
/-! DEFINITION. The host software the spec describes beside the block (spec 60_exceptions.md R230, R231;
70_reset_and_hazards.md R250): the bring-up sequence and the reference scheduler. It is no part of State: its state is
the host's (10_state.md R20), and it drives the block only by the commands it lists. -/

namespace Sys2Proof.Machine

/-- The commands of the bring-up sequence, in R250's order; steps 1, 3 and 8 issue none. -/
def bringUp (h : HostParams) : List Instr :=
  [.timerCfg h.tickTop] ++ Pseudo.expand .ei ++ List.replicate h.startupTicks .wait ++ [.dispClear, .tickClear]

/-- A list of commands as the program of a host in its main context (R232, R233). -/
def mainProgram (is : List Instr) : List HostCmd := is.map fun i => { context := .main, word := encode i }

/-- The scheduler's state (R230): `next_due`, TICK_W bits. -/
structure RefreshSchedule where
  nextDue : Word32
deriving DecidableEq, Repr

/-- PERIOD = 1000 div REFRESH_HZ (R230). -/
def period (h : HostParams) : Nat := 1000 / h.refreshHz

/-- After bring-up next_due = PERIOD (R230, R250 step 8). -/
def RefreshSchedule.start (p : Params) (h : HostParams) : RefreshSchedule where
  nextDue := truncTo p.tickW (BitVec.ofNat 32 (period h))

/-- The due check (R230): now ≥ next_due, an unsigned compare on TICK_W bits. -/
def RefreshSchedule.due (now : Word32) (r : RefreshSchedule) : Bool := decide (r.nextDue.toNat ≤ now.toNat)

/-- The schedule after one check at `now` (R230, R231): one period later if the check is satisfied, however late it is;
else unchanged. -/
def RefreshSchedule.check (p : Params) (h : HostParams) (now : Word32) (r : RefreshSchedule) : RefreshSchedule :=
  if r.due now then { nextDue := truncTo p.tickW (r.nextDue + BitVec.ofNat 32 (period h)) } else r

/-- What the host issues after the TICK_READ that gave `now` (R230): READ_TC if the check is satisfied, then WAIT. -/
def RefreshSchedule.commands (now : Word32) (r : RefreshSchedule) : List Instr :=
  (if r.due now then Pseudo.expand .readTc else []) ++ [.wait]

/-- The compare that is right across a wrap of TICK (R231): (now − next_due) mod 2^TICK_W < 2^(TICK_W − 1). -/
def RefreshSchedule.dueAcrossWrap (p : Params) (now : Word32) (r : RefreshSchedule) : Bool :=
  decide ((truncTo p.tickW (now - r.nextDue)).toNat < 2 ^ (p.tickW - 1))

end Sys2Proof.Machine
end

