-- ==== Sys2Proof/Safety.lean ====
section
/-! DEFINITION. What claims are stated in: runs of turns, the pin events of one write and one read (spec
95_test_vectors.md's W and R), the bus's view of a state, what a run has serviced, and the invariant of the block. -/

namespace Sys2Proof.Machine

/-! ### Runs -/

/-- The turns of `ts` taken in order, stopping at the first fault or refusal. -/
def runTurns : List Turn → State → Host.Outcome State Fault Refusal
  | [], s => .next s
  | t :: ts, s =>
    match takeTurn t s with
    | .next s' => runTurns ts s'
    | .fault r => .fault r
    | .refused r => .refused r

/-- `k` turns of HOST. -/
def hostTurns (k : Nat) : List Turn := List.replicate k .host

/-- The state with its next `k` turns used up, and none of them taken. -/
def State.advanceBy : Nat → State → State
  | 0, s => s
  | k + 1, s => State.advanceBy k s.advance

/-- The turns of a state, for ever: those fixed, then the free rounds. -/
def State.turnAt (s : State) (k : Nat) : Turn := (State.advanceBy k s).nextTurn

/-- The next `k` turns of a state: those fixed, then free ones. -/
def State.upcoming : Nat → State → List Turn
  | 0, _ => []
  | k + 1, s => s.nextTurn :: State.upcoming k s.advance

/-- A turn of one of the three agents that step the block: HOST, TIMER, SERVICE (R6, R58). -/
def isAgentTurn : Turn → Bool
  | .host => true
  | .timerClk => true
  | .tickService => true
  | .readPort _ => false
  | .powerOn => false

/-- How many turns of a run are TICK_SERVICE steps that are enabled when they come (R152). -/
def servicesTaken : List Turn → State → Nat
  | [], _ => 0
  | t :: ts, s =>
    (if t = .tickService ∧ s.serviceEnabled = true then 1 else 0)
      + (match takeTurn t s with
         | .next s' => servicesTaken ts s'
         | .fault _ => 0
         | .refused _ => 0)

/-- The first `k` turns of an endless schedule. -/
def firstTurns (σ : Nat → Turn) (k : Nat) : List Turn := (List.range k).map σ

/-- R153: a step that stays enabled is eventually taken. `σ` is an endless schedule and `s` the state it starts from. R153
says it of TIMER and SERVICE; that it is said of HOST too is the model's reading of R156 (DEDUCED, log 2). -/
def WeaklyFair (σ : Nat → Turn) (s : State) : Prop :=
  ∀ a, isAgentTurn a = true → ∀ n,
    (∀ m, n ≤ m → ∃ u, runTurns (firstTurns σ m) s = .next u ∧ u.enabled a = true) → ∃ m, n ≤ m ∧ σ m = a

/-- HOST is free to issue, and the next word of its program, in its main context, spells `i` (R201). -/
def State.aboutToIssue (i : Instr) (s : State) : Bool :=
  s.canIssue &&
    match s.program with
    | [] => false
    | c :: _ => decide (c.context = .main) && decide (decode c.word = .instr i)

/-- HOST issues command `i` in the course of a run. -/
def issuedIn (i : Instr) : List Turn → State → Bool
  | [], _ => false
  | t :: ts, s =>
    (decide (t = .host) && s.aboutToIssue i)
      || (match takeTurn t s with
          | .next s' => issuedIn i ts s'
          | .fault _ => false
          | .refused _ => false)

/-- No command of the host's program is `i`. -/
def State.programAvoids (i : Instr) (s : State) : Prop := ∀ c ∈ s.program, decode c.word ≠ .instr i

/-- Every command of the host's program is issued from its main context. -/
def State.programInMain (s : State) : Prop := ∀ c ∈ s.program, c.context = .main

/-- A run of the host's program has ended (R233): its last command is complete, and no fault stands. -/
def State.finished (s : State) : Prop := s.program = [] ∧ s.seq = .idle ∧ s.fault = 0

/-- HOST is free to begin a transaction: no command in progress, no fault, and no selector active. -/
def State.ready (s : State) : Prop := s.seq = .idle ∧ s.fault = 0 ∧ s.busy = false

/-- HOST issues command `i` in this step: it is its turn, it is free to issue, and the next word of its program, in
its main context, spells `i` (R201). -/
def State.issues (s : State) (i : Instr) : Prop :=
  s.nextTurn = .host ∧ s.canIssue = true
    ∧ ∃ c rest, s.program = c :: rest ∧ c.context = .main ∧ decode c.word = .instr i

/-! ### Which fault applies -/

/-- The selector operand of a command that takes one (R71). -/
def selectorOf : Instr → Option (BitVec 4)
  | .busWrite sel _ => some sel
  | .busRead sel _ => some sel
  | .csAssert sel => some sel
  | .csDeassert sel => some sel
  | .dataDrive _ | .clkSet _ | .dataSample | .tickRead | .tickClear | .wait | .ieSet _ | .timerCfg _ | .encode _
  | .render _ | .dispClear => none

/-- The bit count of BUS_READ (R72). -/
def bitCountOf : Instr → Option Word16
  | .busRead _ n => some n
  | .busWrite _ _ | .csAssert _ | .csDeassert _ | .dataDrive _ | .clkSet _ | .dataSample | .tickRead | .tickClear
  | .wait | .ieSet _ | .timerCfg _ | .encode _ | .render _ | .dispClear => none

/-- The number of ENCODE and RENDER (R72). -/
def numberOf : Instr → Option Word16
  | .encode number => some number
  | .render number => some number
  | .busWrite _ _ | .busRead _ _ | .csAssert _ | .csDeassert _ | .dataDrive _ | .clkSet _ | .dataSample | .tickRead
  | .tickClear | .wait | .ieSet _ | .timerCfg _ | .dispClear => none

/-- The commands that start a transaction (R101, R203): a RENDER does unless its number is the cached one. -/
def startsTransaction (s : State) : Instr → Bool
  | .busWrite _ _ | .busRead _ _ | .csAssert _ | .dispClear => true
  | .render number => decide (s.last ≠ some number)
  | .csDeassert _ | .dataDrive _ | .clkSet _ | .dataSample | .tickRead | .tickClear | .wait | .ieSet _ | .timerCfg _
  | .encode _ => false

/-- The cause of each fault, as R200 to R206 give it, for a command already decoded. -/
def faultApplies (i : Instr) (s : State) : FaultCode → Bool
  | .illegalCommand => false
  | .badSelector => (selectorOf i).any fun sel => decide (s.params.nsel ≤ sel.toNat)
  | .invalidArgument => (bitCountOf i).any fun n => decide (s.params.resultW < n.toNat)
  | .outOfRange => (numberOf i).any fun m => decide (9999 < m.toNat) && decide (s.params.overPolicy = .fault)
  | .busOverlap => startsTransaction s i && s.busy

/-- R207's order. -/
def faultOrder : List FaultCode := [.illegalCommand, .badSelector, .invalidArgument, .outOfRange, .busOverlap]

/-- The fault R207 reports, if one applies. -/
def firstFault (i : Instr) (s : State) : Option FaultCode := faultOrder.find? (faultApplies i s)

/-! ### Pin events -/

/-- The three events of one bit of a write (R110). -/
def bitEvents (b : Level) : List PinEvent := [.dout b, .sck true, .sck false]

/-- W(k, b): the 26 events of a write of byte b to selector k (R110). -/
def writeEvents (k : Nat) (byte : Byte) : List PinEvent :=
  [.cs k false]
    ++ ([7, 6, 5, 4, 3, 2, 1, 0].map byte.getLsbD).flatMap bitEvents
    ++ [.cs k true]

/-- R(k, bs): the events of a read from selector k whose samples are bs (R111). -/
def readEvents (k : Nat) (bs : List Level) : List PinEvent :=
  [.cs k false]
    ++ bs.flatMap (fun b => [.sck true, .sample (some k) b, .sck false])
    ++ [.cs k true]

/-- The `n` levels sampled from the answers `fixed` for DEVICE and then from the free draws, the next of which is the
`d`-th (R27). -/
def drawnLevels : Nat → List Level → Nat → List Level
  | 0, _, _ => []
  | n + 1, fixed, d => fixed.headD (Config.freeDin d) :: drawnLevels n fixed.tail (d + 1)

/-- The next `n` samples of DIN. -/
def State.samples (n : Nat) (s : State) : List Level := drawnLevels n s.dinInput s.draws

/-- The unsigned value of bits, most significant first (R51). -/
def bitsValue (bs : List Level) : Nat := bs.foldl (fun acc b => 2 * acc + b.toNat) 0

/-! ### Views -/

/-- A state without what TIMER and SERVICE change: TICK, TCNT, PEND and SLEEP, here set to 0. What is left holds every
bus line, RESULT, LAST, SEQ, the trace and the rest (R59, R150, R152). -/
def State.withoutTicks (s : State) : State := { s with tick := 0, tcnt := 0, pend := false, sleep := false }

/-! ### The invariant -/

/-- The lines of a byte being written: the selector exists; before its assertion every line is inactive, and after it
exactly its own line is active; SCK is 1 before the falling edge. -/
structure WriteJob.Ok (s : State) (j : WriteJob) : Prop where
  selector : j.sel < s.params.nsel
  bit : j.i ≤ 7
  before : j.ph = .assert → s.cs = List.replicate s.params.nsel true
  during : j.ph ≠ .assert → s.cs = (List.replicate s.params.nsel true).set j.sel false
  clock : j.ph = .clkLow → s.sck = true

/-- The same of a read, whose accumulator stays within RESULT_W bits. -/
structure ReadJob.Ok (s : State) (j : ReadJob) : Prop where
  selector : j.sel < s.params.nsel
  count : j.n ≤ s.params.resultW
  bit : j.i ≤ j.n
  acc : j.acc.toNat < 2 ^ s.params.resultW
  before : j.ph = .assert → s.cs = List.replicate s.params.nsel true
  during : j.ph ≠ .assert → s.cs = (List.replicate s.params.nsel true).set j.sel false
  clock : j.ph = .sample ∨ j.ph = .clkLow → s.sck = true

/-- SEQ fits the rest of the state. -/
def State.SeqOk (s : State) : Prop :=
  match s.seq with
  | .idle => True
  | .wait => True
  | .busWrite j => j.Ok s
  | .busRead j => j.Ok s
  | .render number bytes kb j =>
    j.Ok s ∧ j.sel = display ∧ bytes = renderBytes s.params number ∧ bytes[kb]? = some j.sr
      ∧ overRange s.params number = false
  | .dispClear bytes kb j => j.Ok s ∧ j.sel = display ∧ bytes = clearBytes ∧ bytes[kb]? = some j.sr

/-- The invariant of the block. -/
structure State.Inv (s : State) : Prop where
  /-- The parameters are in R7's ranges. -/
  params : s.params.wf = true
  /-- There are NSEL selector lines (R24). -/
  lines : s.cs.length = s.params.nsel
  /-- At most one selector line is active (R25). -/
  oneSelector : s.cs.count false ≤ 1
  /-- TICK is TICK_W bits wide (R30). -/
  tick : s.tick.toNat < 2 ^ s.params.tickW
  /-- The timer runs exactly when TOP ≠ 0 (R144, R240). -/
  timer : s.ten = decide (s.top ≠ 0)
  /-- With TEN = 1, TCNT < TOP (R150); with TEN = 0, TCNT = 0. -/
  counter : if s.ten then s.tcnt < s.top else s.tcnt = 0
  /-- FAULT holds 0 or a code of R200, and FAULT_CMD is 0 with it (R33). -/
  faults : (s.fault = 0 ∧ s.faultCmd = 0) ∨ ∃ c : FaultCode, s.fault = c.code
  /-- A fault leaves no command in progress (R201). -/
  stopped : s.fault ≠ 0 → s.seq = .idle
  /-- SLEEP is 1 only while HOST is in WAIT (R26, R142). -/
  sleeping : s.sleep = true → s.seq = .wait
  /-- LAST holds only what the encoder accepts (90_conflicts.md C6). -/
  cache : ∀ v, s.last = some v → overRange s.params v = false
  /-- SEQ fits the rest of the state. -/
  sequencer : s.SeqOk

end Sys2Proof.Machine
end

