-- ==== Sys2Proof/Certificates/Slice0/Obligations.lean ====
section
/-! DEFINITION. The statements for the provers. Each docstring names the rule or section it formalises. A statement
about a command that ends after one micro-step gives the whole next state; one about a command of several micro-steps
gives exec's next state and the state after HOST's remaining turns. -/

open Sys2Proof Sys2Proof.Machine

/-! ### Encoding -/

/-- Every command's word decodes to it, at every value of every operand (R70 to R75). -/
def Obligations.DecodeOfEncode : Prop := ∀ i : Instr, decode (encode i) = .instr i

/-- A word that decodes to a command is that command's word: no other word spells it (R73, R74). -/
def Obligations.EncodeOfDecode : Prop := ∀ (w : Word24) (i : Instr), decode w = .instr i → encode i = w

/-- R73, R74: a word selects at most one row, it decodes exactly when it selects one, and then to that row's
mnemonic. -/
def Obligations.WordSelectsUniqueRow : Prop :=
  (∀ (w : Word24) (o o' : Opcode), Opcode.selectedBy w o = true → Opcode.selectedBy w o' = true → o = o')
    ∧ (∀ (w : Word24) (o : Opcode), Opcode.selectedBy w o = true → ∃ i, decode w = .instr i ∧ i.opcode = o)
    ∧ (∀ (w : Word24) (i : Instr), decode w = .instr i → Opcode.selectedBy w i.opcode = true)

/-- R206: a word is illegal exactly when its op is 0 or a reserved-zero bit of its op's row is set; issuing one sets
FAULT to 1 and FAULT_CMD to the word, and has no other effect. -/
def Obligations.IllegalWordFaults : Prop :=
  (∀ w : Word24, (∃ why, decode w = .illegal why) ↔
      opField w = 0 ∨ ∃ o : Opcode, opField w = opField o.row.pattern ∧ (w &&& o.row.mask) ≠ o.row.pattern)
    ∧ ∀ (w : Word24) (why : DecodeReject) (s : State), decode w = .illegal why → s.fault = 0 → s.seq = .idle →
        issue { context := .main, word := w } s = .next { s with fault := 1, faultCmd := w }

/-- R73, R76, R95's words, one or more of each family, written out from the encoding column. -/
def Obligations.WordsOfTheSpecDecode : Prop :=
  decode 0x110076 = .instr (.busWrite 1 0x76) ∧ decode 0x20000E = .instr (.busRead 0 14)
    ∧ decode 0x310000 = .instr (.csAssert 1) ∧ decode 0x400000 = .instr (.csDeassert 0)
    ∧ decode 0x500001 = .instr (.dataDrive true) ∧ decode 0x600000 = .instr (.clkSet false)
    ∧ decode 0x700000 = .instr .dataSample ∧ decode 0x800000 = .instr .tickRead
    ∧ decode 0x900000 = .instr .tickClear ∧ decode 0xA00000 = .instr .wait
    ∧ decode 0xB00001 = .instr (.ieSet true) ∧ decode 0xC003E8 = .instr (.timerCfg 1000)
    ∧ decode 0xD00069 = .instr (.encode 105) ∧ decode 0xE004D2 = .instr (.render 1234)
    ∧ decode 0xF00000 = .instr .dispClear

/-- R76: a line whose numbers fit has a word, and the word decodes to a command of the line's mnemonic with the line's
numbers in its fields; a line with a number that does not fit has none. -/
def Obligations.AssemblerLineSpellsItsCommand : Prop :=
  (∀ l : AsmLine, l.wellFormed = true →
      ∃ w i, l.word = some w ∧ decode w = .instr i ∧ i.opcode = l.op
        ∧ (selField w).toNat = l.sel ∧ (operandField w).toNat = l.operand)
    ∧ ∀ l : AsmLine, l.wellFormed = false → l.word = none

/-! ### The step -/

/-- R201, R58: where it is HOST's turn, HOST is free to issue and its next word, in its main context, decodes to `i`,
the step is exec of `i` on the state with the turn and the word used up. -/
def Obligations.StepRunsDecodedCommand : Prop :=
  ∀ (s : State) (c : HostCmd) (rest : List HostCmd) (i : Instr),
    s.nextTurn = .host → s.fault = 0 → s.seq = .idle → s.program = c :: rest → c.context = .main →
    decode c.word = .instr i → step s = exec i { s.advance with program := rest }

/-- The word placed by withFetchWord is what the next step issues, from any state (log 10). -/
def Obligations.PlacedWordIsIssued : Prop :=
  ∀ (s : State) (w : Word24),
    step (s.withFetchWord 24 w.toNat)
      = issue { context := .main, word := w } { s with fault := 0, seq := .idle }

/-- R142, R201, R58: HOST's turn while a command is in progress and no fault stands is one micro-step of it. -/
def Obligations.StepContinuesCommand : Prop :=
  ∀ s : State, s.nextTurn = .host → s.fault = 0 → s.seq ≠ .idle → step s = .next (continueCommand s.advance)

/-- R58, R212: `k` steps are the next `k` turns taken in order, and nothing but those turns is used up. -/
def Obligations.RunIsItsTurns : Prop :=
  ∀ (k : Nat) (s t : State), runTurns (State.upcoming k s) s = .next t →
    Host.Core.run core k s = .next { t with
      schedule := (State.advanceBy k s).schedule, rounds := (State.advanceBy k s).rounds }

/-- R153: the turns of every state are fair, each agent's coming again and again, so that every run of the machine is
weakly fair; and nothing else is said of the order, for any turns may come first. That HOST's turns come again too, and
the form of the schedule, are the model's choice (log 2). -/
def Obligations.ScheduleIsFairAndOtherwiseFree : Prop :=
  (∀ (s : State) (a : Turn), isAgentTurn a = true → ∀ n, ∃ m, n ≤ m ∧ s.turnAt m = a)
    ∧ (∀ s : State, WeaklyFair s.turnAt s ∧ ∀ k, firstTurns s.turnAt k = State.upcoming k s)
    ∧ ∀ (ts : List Turn) (s : State), State.upcoming ts.length { s with schedule := ts } = ts

/-- Every step answers a next state but the issue of a command from interrupt context, which is refused: no fault of the
block and no read stops the machine. R232 refuses the program that issues such a command; that the refusal comes at that
command's issue and no earlier is the model's choice (log 17). That the machine goes on after a refused read of RESULT is
the model's reading of R34 and 93_implementation_defined.md I5 (log 5). -/
def Obligations.StepStopsOnlyAtInterruptContextCommand : Prop :=
  ∀ s : State,
    (∀ r : Refusal, step s = .refused r ↔
        s.nextTurn = .host ∧ s.canIssue = true ∧ r = .interruptContextCommand
          ∧ ∃ c rest, s.program = c :: rest ∧ c.context = .interrupt)
      ∧ ((∃ t, step s = .next t) ∨ step s = .refused .interruptContextCommand)

/-- R34, R35: at any time the port shows FAULT and FAULT_CMD, and RESULT once a result-producing command has completed
since reset; until then a read of RESULT is answered as a fault. No read has a side effect, a refused one neither: that
the block goes on after it is read from R34 and 93_implementation_defined.md I5 (log 5). -/
def Obligations.ReadPortShowsThreeRegisters : Prop :=
  ∀ s : State,
    (s.resultValid = true → readPort .result s = .value s.result)
      ∧ (s.resultValid = false → readPort .result s = .fault)
      ∧ readPort .fault s = .value (s.fault.setWidth 32)
      ∧ readPort .faultCmd s = .value (s.faultCmd.setWidth 32)
      ∧ (∀ p, s.nextTurn = .readPort p → step s = .next s.advance)
      ∧ ∀ p, takeTurn (.readPort p) s = .next s

/-- R22: 'No other command or event writes the register.' For every step that is not a power-on, a register that
changes is written by one of the writers R22 lists for it: BUS_READ writes RESULT, and RENDER and DISP_CLEAR write LAST,
only in the micro-step that ends the command (R32). No step changes the parameters (R8, log 1). -/
def Obligations.RegistersHaveOnlyTheirWriters : Prop :=
  ∀ s t : State, step s = .next t →
    t.params = s.params ∧
    (s.nextTurn ≠ .powerOn →
      ((t.result ≠ s.result ∨ t.resultValid ≠ s.resultValid) →
        (s.nextTurn = .host ∧ ∃ j, s.seq = .busRead j ∧ j.ph = .deassert) ∨ s.issues .dataSample ∨ s.issues .tickRead
          ∨ ∃ number, s.issues (.encode number))
      ∧ ((t.fault ≠ s.fault ∨ t.faultCmd ≠ s.faultCmd) → s.nextTurn = .host ∧ s.canIssue = true ∧ t.fault ≠ 0)
      ∧ (t.gie ≠ s.gie → ∃ b, s.issues (.ieSet b))
      ∧ (t.pend ≠ s.pend → s.nextTurn = .timerClk ∧ t.pend = true ∨ s.nextTurn = .tickService ∧ t.pend = false)
      ∧ (t.sleep ≠ s.sleep → s.issues .wait ∧ t.sleep = true ∨ s.nextTurn = .tickService ∧ t.sleep = false)
      ∧ ((t.ten ≠ s.ten ∨ t.top ≠ s.top) → ∃ top, s.issues (.timerCfg top))
      ∧ (t.tcnt ≠ s.tcnt → s.nextTurn = .timerClk ∨ ∃ top, s.issues (.timerCfg top))
      ∧ (t.tick ≠ s.tick → s.nextTurn = .tickService ∨ s.issues .tickClear)
      ∧ (t.last ≠ s.last → s.nextTurn = .host ∧
          ((∃ number bytes kb j, s.seq = .render number bytes kb j ∧ j.ph = .deassert ∧ bytes.length ≤ kb + 1
              ∧ t.last = some number ∧ t.seq = .idle)
            ∨ ∃ bytes kb j, s.seq = .dispClear bytes kb j ∧ j.ph = .deassert ∧ bytes.length ≤ kb + 1
              ∧ t.last = none ∧ t.seq = .idle)))

/-! ### Reset and the invariant -/

/-- R240, at every power-on and for all parameters: the values it gives; DOUT and TICK are draws, of which only TICK's
width is said. State.reset is the first power-on of this hardware's parameters. -/
def Obligations.ResetValues : Prop :=
  (∀ (p : Params) (k : Nat), p.wf = true →
    let s := State.powerUp p k
    s.cs = List.replicate p.nsel true ∧ s.sck = false ∧ s.resultValid = false
      ∧ readPort .result s = .fault
      ∧ s.fault = 0 ∧ s.faultCmd = 0 ∧ s.gie = false ∧ s.pend = false ∧ s.sleep = false ∧ s.ten = false
      ∧ s.top = 0 ∧ s.tcnt = 0 ∧ s.tick.toNat < 2 ^ p.tickW ∧ s.last = p.renderCacheReset ∧ s.seq = .idle
      ∧ s.trace = [])
    ∧ State.reset = State.powerUp Params.hardware 0

/-- R242: power-on as a turn gives the reset values, with the next draws, in every state, a faulted one too. That the
host's program, the schedule and the device's answers go on is the model's choice (log 15). -/
def Obligations.PowerOnTakesResetValues : Prop :=
  ∀ s : State, takeTurn .powerOn s = .next { State.powerUp s.params s.powerOns with
    program := s.program, schedule := s.schedule, rounds := s.rounds, dinInput := s.dinInput, draws := s.draws }

/-- R241: after reset HOST is free to issue, the interrupt is disabled, and neither TIMER nor SERVICE has a step. -/
def Obligations.AfterResetHostIssuesAndNoTickComes : Prop :=
  ∀ (p : Params) (k : Nat),
    (State.powerUp p k).canIssue = true ∧ (State.powerUp p k).busy = false
      ∧ (State.powerUp p k).timerEnabled = false ∧ (State.powerUp p k).serviceEnabled = false
      ∧ timerClk (State.powerUp p k) = State.powerUp p k ∧ tickService (State.powerUp p k) = State.powerUp p k

/-- The invariant holds after every power-on, for all parameters in R7's ranges, and so at State.reset. -/
def Obligations.InvariantAtPowerUp : Prop :=
  (∀ (p : Params) (k : Nat), p.wf = true → (State.powerUp p k).Inv) ∧ State.reset.Inv

/-- Every step keeps the invariant: at most one active selector (R25), widths (R30), TCNT below TOP (R150), FAULT's
codes (R33), no command in progress after a fault (R201), SLEEP only in WAIT (R142), LAST in range (C6), and a sequencer
that fits the lines (R29). -/
def Obligations.StepKeepsInvariant : Prop :=
  ∀ s t : State, s.Inv → step s = .next t → t.Inv

/-! ### Faults -/

/-- R201: HOST holds while FAULT ≠ 0; an illegal word faults, a legal one runs its command; raising a fault writes
FAULT and FAULT_CMD once, idles SEQ and changes nothing else; a command that faults changes nothing but these; no
fault arises part-way through a command; TIMER and SERVICE step whether or not FAULT ≠ 0; and a faulted state is not
final. -/
def Obligations.IssueAndFaultAction : Prop :=
  (∀ s : State, s.fault ≠ 0 → hostTurn s = .next s ∧ ¬ s.finished)
    ∧ (∀ (s : State) (c : HostCmd) (rest : List HostCmd),
        s.fault = 0 → s.seq = .idle → s.program = c :: rest → c.context = .main →
        (∀ why, decode c.word = .illegal why →
          hostTurn s = .next (raiseFault .illegalCommand c.word { s with program := rest }))
        ∧ ∀ i, decode c.word = .instr i → hostTurn s = exec i { s with program := rest })
    ∧ (∀ (c : FaultCode) (w : Word24) (s : State),
        (s.fault = 0 → raiseFault c w s = { s with fault := c.code, faultCmd := w, seq := .idle })
        ∧ (s.fault ≠ 0 → raiseFault c w s = { s with seq := .idle }))
    ∧ (∀ (i : Instr) (s t : State), s.fault = 0 → s.seq = .idle → exec i s = .next t → t.fault ≠ 0 →
        t = { s with fault := t.fault, faultCmd := encode i })
    ∧ (∀ s : State, (continueCommand s).fault = s.fault ∧ (continueCommand s).faultCmd = s.faultCmd)
    ∧ ∀ (s : State) (c : BitVec 8),
        timerClk { s with fault := c } = { timerClk s with fault := c }
          ∧ tickService { s with fault := c } = { tickService s with fault := c }

/-- R200, R202 to R207: the fault reported is the first that applies in R207's order, raised with the command's word;
where none applies the command answers a next state without one. No command answers anything else. -/
def Obligations.FirstApplicableFaultIsRaised : Prop :=
  ∀ (i : Instr) (s : State),
    (∀ c, firstFault i s = some c → exec i s = .next (raiseFault c (encode i) s))
      ∧ (firstFault i s = none → ∃ t, exec i s = .next t ∧ t.fault = s.fault ∧ t.faultCmd = s.faultCmd)

/-- R33, R242: only power-on clears FAULT and FAULT_CMD, and no step overwrites a fault. -/
def Obligations.FaultStandsUntilPowerOn : Prop :=
  ∀ s t : State, step s = .next t → s.fault ≠ 0 → s.nextTurn ≠ .powerOn →
    t.fault = s.fault ∧ t.faultCmd = s.faultCmd

/-- R201: after a fault, however the agents take turns and the host reads, HOST does nothing until power-on: only TICK,
TCNT, PEND and SLEEP may change. -/
def Obligations.FaultedHostIsStuck : Prop :=
  ∀ (ts : List Turn) (s : State), s.fault ≠ 0 → (∀ t ∈ ts, t ≠ .powerOn) →
    ∃ t, runTurns ts s = .next t ∧ t.withoutTicks = s.withoutTicks

/-! ### Bus family -/

/-- R110: BUS_WRITE from a ready state. The first micro-step asserts the selector; 25 more turns of HOST complete it:
the 26 events, DOUT at bit 0, SCK at 0, every line back inactive, everything else unchanged. -/
def Obligations.BusWriteSendsByte : Prop :=
  ∀ (s : State) (sel : BitVec 4) (byte : Byte), s.ready → sel.toNat < s.params.nsel →
    ∃ t, exec (.busWrite sel byte) s = .next t
      ∧ t.cs = s.cs.set sel.toNat false ∧ t.trace = s.trace ++ [.cs sel.toNat false]
      ∧ runTurns (hostTurns 25) t = .next { s with
          dout := byte.getLsbD 0
          sck := false
          trace := s.trace ++ writeEvents sel.toNat byte }

/-- R119: around every BUS_WRITE that does not fault, the selector is 1 before its assertion; between its two events
there are exactly eight SCK(1) events, the j-th preceded by exactly one DOUT event, carrying bit 7 − j; and the selector
is 1 afterwards. -/
def Obligations.WriteTraceRoundTrip : Prop :=
  ∀ (s : State) (sel : BitVec 4) (byte : Byte), s.ready → s.cs.length = s.params.nsel → sel.toNat < s.params.nsel →
    ∃ t u mid, exec (.busWrite sel byte) s = .next t ∧ runTurns (hostTurns 25) t = .next u
      ∧ s.cs[sel.toNat]? = some true ∧ u.cs[sel.toNat]? = some true
      ∧ u.trace = s.trace ++ [.cs sel.toNat false] ++ mid ++ [.cs sel.toNat true]
      ∧ mid = (List.range 8).flatMap (fun j => [.dout (byte.getLsbD (7 - j)), .sck true, .sck false])
      ∧ (mid.filter fun e => decide (e = .sck true)).length = 8

/-- R103, R252: the selected device latches the byte's eight bits, most significant first, if SCK was 0 at issue; if
SCK was 1 it misses bit 7, and the block does not fault. -/
def Obligations.DeviceLatchesWrittenByte : Prop :=
  ∀ (s : State) (sel : BitVec 4) (byte : Byte), s.ready → sel.toNat < s.params.nsel →
    ∃ t u evs, exec (.busWrite sel byte) s = .next t ∧ runTurns (hostTurns 25) t = .next u
      ∧ u.fault = 0 ∧ u.trace = s.trace ++ evs
      ∧ (s.sck = false → deviceLatches s.sck s.dout none evs
          = [7, 6, 5, 4, 3, 2, 1, 0].map fun i => (sel.toNat, byte.getLsbD i))
      ∧ (s.sck = true → deviceLatches s.sck s.dout none evs
          = [6, 5, 4, 3, 2, 1, 0].map fun i => (sel.toNat, byte.getLsbD i))

/-- R111, R51, R52: BUS_READ from a ready state. 3n + 1 more turns of HOST complete it: the 3n + 2 events, RESULT the
samples' value with the first as bit n − 1, n draws used up, DOUT unchanged, SCK at 0 if a bit was read, and everything
else unchanged. -/
def Obligations.BusReadReturnsSamples : Prop :=
  ∀ (s : State) (sel : BitVec 4) (n : Word16), s.ready → s.params.wf = true → sel.toNat < s.params.nsel →
    n.toNat ≤ s.params.resultW →
    ∃ t, exec (.busRead sel n) s = .next t
      ∧ t.cs = s.cs.set sel.toNat false ∧ t.trace = s.trace ++ [.cs sel.toNat false]
      ∧ runTurns (hostTurns (3 * n.toNat + 1)) t = .next { s with
          result := BitVec.ofNat 32 (bitsValue (State.samples n.toNat s))
          resultValid := true
          sck := if n = 0 then s.sck else false
          dinInput := s.dinInput.drop n.toNat
          draws := s.draws + n.toNat
          trace := s.trace ++ readEvents sel.toNat (State.samples n.toNat s) }
      ∧ bitsValue (State.samples n.toNat s) < 2 ^ n.toNat

/-- R112: CS_ASSERT of an existing selector with none active drives its line to 0, and leaves a transaction open: the
bus is then busy, until a CS_DEASSERT of the same selector. It faults on a selector that does not exist, and while one
is active, its own included. -/
def Obligations.CsAssertOpensTransaction : Prop :=
  ∀ (s : State) (sel : BitVec 4),
    (∀ w, decode w = .instr (.csAssert sel) ↔ w = 0x3#4 ++ sel ++ 0#16)
      ∧ (sel.toNat < s.params.nsel → s.busy = false →
          exec (.csAssert sel) s = .next { s with
            cs := s.cs.set sel.toNat false, trace := s.trace ++ [.cs sel.toNat false] })
      ∧ (sel.toNat < s.cs.length → State.busy { s with cs := s.cs.set sel.toNat false } = true)
      ∧ (∀ k v, s.cs[sel.toNat]? = some false → k ≠ sel.toNat → State.busy { s with cs := s.cs.set k v } = true)
      ∧ (s.params.nsel ≤ sel.toNat →
          exec (.csAssert sel) s = .next (raiseFault .badSelector (encode (.csAssert sel)) s))
      ∧ (sel.toNat < s.params.nsel → s.busy = true →
          exec (.csAssert sel) s = .next (raiseFault .busOverlap (encode (.csAssert sel)) s))

/-- R113: CS_DEASSERT of an existing selector drives its line to 1 and records one event, whatever is active; on an
inactive line no level changes; another selector's line stays as it was. -/
def Obligations.CsDeassertReleasesItsLine : Prop :=
  ∀ (s : State) (sel : BitVec 4),
    (∀ w, decode w = .instr (.csDeassert sel) ↔ w = 0x4#4 ++ sel ++ 0#16)
      ∧ (sel.toNat < s.params.nsel →
          exec (.csDeassert sel) s = .next { s with
            cs := s.cs.set sel.toNat true, trace := s.trace ++ [.cs sel.toNat true] })
      ∧ (s.cs[sel.toNat]? = some true → s.cs.set sel.toNat true = s.cs)
      ∧ (∀ k, k ≠ sel.toNat → (s.cs.set sel.toNat true)[k]? = s.cs[k]?)
      ∧ (s.params.nsel ≤ sel.toNat →
          exec (.csDeassert sel) s = .next (raiseFault .badSelector (encode (.csDeassert sel)) s))

/-- R114, R115, R116: each pin primitive, legal with or without a selector active, changes or samples its one line and
records one event. A change of SCK from 0 to 1, and no other, makes the selected device latch DOUT; PULSE is CLK_SET 1
and CLK_SET 0. -/
def Obligations.PinPrimitives : Prop :=
  ∀ (s : State) (b : Level),
    (∀ w, decode w = .instr (.dataDrive b) ↔ w = 0x5#4 ++ 0#19 ++ BitVec.ofBool b)
      ∧ exec (.dataDrive b) s = .next { s with dout := b, trace := s.trace ++ [.dout b] }
      ∧ (∀ w, decode w = .instr (.clkSet b) ↔ w = 0x6#4 ++ 0#19 ++ BitVec.ofBool b)
      ∧ exec (.clkSet b) s = .next { s with sck := b, trace := s.trace ++ [.sck b] }
      ∧ deviceLatches s.sck s.dout s.active [.sck b]
          = (if s.sck = false ∧ b = true then s.active.toList.map fun k => (k, s.dout) else [])
      ∧ Pseudo.expand .pulse = [.clkSet true, .clkSet false]
      ∧ (∀ w, decode w = .instr .dataSample ↔ w = 0x700000#24)
      ∧ exec .dataSample s = .next { s with
          result := if s.din then 1 else 0
          resultValid := true
          dinInput := s.dinInput.tail
          draws := s.draws + 1
          trace := s.trace ++ [.sample s.active s.din] }

/-- R117: BUS_WRITE and its primitive sequence, each run by 26 turns of HOST, end in the same state: the same events in
the same order, the same lines, and nothing else apart. -/
def Obligations.WriteEqualsItsPrimitives : Prop :=
  ∀ (s : State) (sel : BitVec 4) (byte : Byte), s.ready → sel.toNat < s.params.nsel →
    ∃ t, runTurns (hostTurns 26) { s with program := mainProgram [.busWrite sel byte] } = .next t
      ∧ runTurns (hostTurns 26) { s with program := mainProgram ([.csAssert sel]
          ++ [7, 6, 5, 4, 3, 2, 1, 0].flatMap (fun i => [.dataDrive (byte.getLsbD i), .clkSet true, .clkSet false])
          ++ [.csDeassert sel]) } = .next t

/-- R118: a read built from primitives emits the events of BUS_READ and leaves the same state, but for RESULT, which
holds only the last bit (and of no bits is not written). -/
def Obligations.ReadFromPrimitives : Prop :=
  ∀ (s : State) (sel : BitVec 4) (n : Word16), s.ready → s.params.wf = true → s.cs.length = s.params.nsel →
    sel.toNat < s.params.nsel → n.toNat ≤ s.params.resultW →
    ∃ t u, runTurns (hostTurns (3 * n.toNat + 2)) { s with program := mainProgram [.busRead sel n] } = .next t
      ∧ runTurns (hostTurns (3 * n.toNat + 2)) { s with program := mainProgram ([.csAssert sel]
          ++ (List.replicate n.toNat [.clkSet true, .dataSample, .clkSet false]).flatten
          ++ [.csDeassert sel]) } = .next u
      ∧ u = { t with
          result := if n = 0 then s.result else if (State.samples n.toNat s).getLastD false then 1 else 0
          resultValid := if n = 0 then s.resultValid else true }

/-- R59: for a run without power-on whose program issues neither TICK_READ nor WAIT, TIMER and SERVICE
turns, and host reads, change no line, no event, no result, no fault and no SEQ field: taking only HOST's turns gives the same state but
for TICK, TCNT, PEND and SLEEP. -/
def Obligations.TicksDoNotTouchTheBus : Prop :=
  ∀ (ts : List Turn) (s : State), (∀ t ∈ ts, t ≠ .powerOn) → s.seq ≠ .wait → s.programInMain →
    s.programAvoids .tickRead → s.programAvoids .wait →
    ∃ t u, runTurns ts s = .next t ∧ runTurns (ts.filter fun x => decide (x = .host)) s = .next u
      ∧ t.withoutTicks = u.withoutTicks

/-! ### Tick family -/

/-- R140: TICK_READ copies the whole of TICK into RESULT in one micro-step; bits above TICK_W are 0; and a read after
one more service gives one more, modulo 2^TICK_W. -/
def Obligations.TickReadCopiesTick : Prop :=
  ∀ s : State, s.params.wf = true →
    (∀ w, decode w = .instr .tickRead ↔ w = 0x800000#24)
      ∧ exec .tickRead s = .next { s with result := s.tickValue, resultValid := true }
      ∧ s.tickValue.toNat = s.tick.toNat % 2 ^ s.params.tickW
      ∧ (s.serviceEnabled = true →
          exec .tickRead (tickService s) = .next { tickService s with
            result := BitVec.ofNat 32 ((s.tickValue.toNat + 1) % 2 ^ s.params.tickW), resultValid := true })

/-- R141: TICK_CLEAR sets TICK to 0 and changes nothing else; a service pending at the time comes after it and gives 1
at the next read. -/
def Obligations.TickClearZeroesTick : Prop :=
  ∀ s : State, s.params.wf = true →
    (∀ w, decode w = .instr .tickClear ↔ w = 0x900000#24)
      ∧ exec .tickClear s = .next { s with tick := 0 }
      ∧ (s.pend = true → s.gie = true → (tickService { s with tick := 0 }).tickValue = 1)

/-- R142: WAIT parks HOST: SLEEP is set, and HOST has no step while it stands; TIMER leaves it set, a service clears
it, and then HOST's second micro-step ends the command. -/
def Obligations.WaitParksUntilService : Prop :=
  ∀ s : State, s.fault = 0 →
    (∀ w, decode w = .instr .wait ↔ w = 0xA00000#24)
      ∧ exec .wait s = .next { s with sleep := true, seq := .wait }
      ∧ hostTurn { s with sleep := true, seq := .wait } = .next { s with sleep := true, seq := .wait }
      ∧ (timerClk { s with sleep := true, seq := .wait }).sleep = true
      ∧ (s.pend = true → s.gie = true →
          runTurns [.tickService, .host] { s with sleep := true, seq := .wait }
            = .next { s with
                tick := truncTo s.params.tickW (s.tickValue + 1), sleep := false, pend := false, seq := .idle })

/-- R156, bounded: with GIE = 1 and the timer running, a WAIT ends once TIMER has had the turns up to the roll-over,
SERVICE one turn and HOST one; one service is taken, and the lines hold. -/
def Obligations.WaitEndsAtNextRollOver : Prop :=
  ∀ s : State, s.seq = .wait → s.sleep = true → s.fault = 0 → s.gie = true → s.ten = true → s.tcnt < s.top →
    runTurns (List.replicate (s.top.toNat - s.tcnt.toNat) .timerClk ++ [.tickService, .host]) s
      = .next { s with
          tick := truncTo s.params.tickW (s.tickValue + 1), tcnt := 0, sleep := false, pend := false, seq := .idle }

/-- R156: a WAIT that has ended had a service after its first micro-step. With the timer running and GIE = 1, every WAIT
ends under weak fairness, whatever the order of the turns: at its end TICK, TCNT, PEND and SLEEP may have changed, SEQ is
idle, and all else is as it was. R153 calls TIMER and SERVICE weakly fair; that weak fairness takes in HOST is the model's
reading (log 2). -/
def Obligations.WaitEndsUnderWeakFairness : Prop :=
  (∀ (ts : List Turn) (s t : State), s.seq = .wait → s.sleep = true → (∀ x ∈ ts, x ≠ .powerOn) →
      runTurns ts s = .next t → t.seq ≠ .wait → 1 ≤ servicesTaken ts s)
    ∧ ∀ (σ : Nat → Turn) (s : State), s.seq = .wait → s.fault = 0 → s.gie = true → s.ten = true → s.tcnt < s.top →
      (∀ k, σ k ≠ .powerOn) → WeaklyFair σ s →
      ∃ k t, runTurns (firstTurns σ k) s = .next t ∧ t.withoutTicks = { s.withoutTicks with seq := .idle }

/-- R254: a WAIT with GIE = 0, or with TEN = 0 and PEND = 0, never ends without a
power-on, however the agents take turns and the host reads. -/
def Obligations.WaitWithoutLiveTickHangs : Prop :=
  ∀ (ts : List Turn) (s : State), s.seq = .wait → s.sleep = true →
    (s.gie = false ∨ s.ten = false ∧ s.pend = false) → (∀ t ∈ ts, t ≠ .powerOn) →
    ∃ t, runTurns ts s = .next t ∧ t.seq = .wait ∧ t.sleep = true ∧ t.fault = s.fault ∧ t.trace = s.trace

/-- R143: IE_SET writes GIE and nothing else. With GIE = 0 the service is disabled and roll-overs still set PEND; with
GIE = 1 and PEND = 1 it is enabled. EI and DI are its two forms. -/
def Obligations.IeSetWritesGie : Prop :=
  ∀ (s : State) (b : Level),
    (∀ w, decode w = .instr (.ieSet b) ↔ w = 0xB#4 ++ 0#19 ++ BitVec.ofBool b)
      ∧ exec (.ieSet b) s = .next { s with gie := b }
      ∧ State.serviceEnabled { s with gie := b } = (s.pend && b)
      ∧ (s.ten = true → s.rollsOver = true → (timerClk { s with gie := b }).pend = true)
      ∧ Pseudo.expand .ei = [.ieSet true] ∧ Pseudo.expand .di = [.ieSet false]

/-- R144: TIMER_CFG loads TOP, restarts TCNT, and runs the timer exactly when top ≠ 0; PEND and everything else stay.
Then a roll-over comes at the top-th TIMER_CLK and none before it. -/
def Obligations.TimerCfgRestartsTimer : Prop :=
  ∀ (s : State) (top : Word16),
    (∀ w, decode w = .instr (.timerCfg top) ↔ w = 0xC0#8 ++ top)
      ∧ exec (.timerCfg top) s = .next { s with top := top, tcnt := 0, ten := decide (top ≠ 0) }
      ∧ (∀ k : Nat, k < top.toNat →
          runTurns (List.replicate k .timerClk) { s with top := top, tcnt := 0, ten := decide (top ≠ 0) }
            = .next { s with top := top, tcnt := BitVec.ofNat 16 k, ten := decide (top ≠ 0) })
      ∧ (top ≠ 0 →
          runTurns (List.replicate top.toNat .timerClk) { s with top := top, tcnt := 0, ten := true }
            = .next { s with top := top, tcnt := 0, ten := true, pend := true })
      ∧ Pseudo.expand .timerStop = [.timerCfg 0]

/-- R150: TIMER_CLK, enabled exactly when TEN = 1, takes TCNT to 0 and sets PEND when TCNT = TOP − 1, and else counts
up; it changes nothing else, in a faulted state too. With TEN = 1, TCNT < TOP always holds: after power-on TEN is 0, and
every step, of whichever agent, keeps it. -/
def Obligations.TimerClkCountsModuloTop : Prop :=
  (∀ s : State,
    (s.ten = true → s.tcnt = s.top - 1 → takeTurn .timerClk s = .next { s with tcnt := 0, pend := true })
      ∧ (s.ten = true → s.tcnt ≠ s.top - 1 → takeTurn .timerClk s = .next { s with tcnt := s.tcnt + 1 })
      ∧ (s.ten = false → takeTurn .timerClk s = .next s)
      ∧ (s.ten = true → s.tcnt < s.top → (timerClk s).tcnt < (timerClk s).top))
    ∧ (∀ s t : State, (s.ten = true → s.tcnt < s.top) → step s = .next t → t.ten = true → t.tcnt < t.top)
    ∧ ∀ (p : Params) (k : Nat), (State.powerUp p k).ten = false

/-- R151: a roll-over while PEND = 1 is lost: PEND stays 1, and the service that follows advances TICK once. -/
def Obligations.RollOverWhilePendingIsLost : Prop :=
  ∀ s : State, s.ten = true → s.pend = true → s.rollsOver = true →
    takeTurn .timerClk s = .next { s with tcnt := 0 }
      ∧ (s.gie = true → takeTurn .tickService { s with tcnt := 0 }
          = .next { s with tcnt := 0, tick := truncTo s.params.tickW (s.tickValue + 1), sleep := false, pend := false })

/-- R255: with GIE = 0 and the timer left running, TCNT counts every TIMER_CLK of a run, however the other turns fall
between them; all the roll-overs together leave one pending tick, no service is taken, TICK stands, and the service that
comes once GIE = 1 again adds one. -/
def Obligations.LongCriticalSectionLosesTicks : Prop :=
  ∀ (ts : List Turn) (s t : State), s.params.wf = true → s.gie = false → s.ten = true → s.tcnt < s.top →
    (∀ x ∈ ts, x ≠ .powerOn) → issuedIn (.ieSet true) ts s = false → (∀ top, issuedIn (.timerCfg top) ts s = false) →
    runTurns ts s = .next t →
    t.tcnt.toNat = (s.tcnt.toNat + ts.count .timerClk) % s.top.toNat
      ∧ t.pend = (s.pend || decide (s.top.toNat ≤ s.tcnt.toNat + ts.count .timerClk))
      ∧ servicesTaken ts s = 0 ∧ (issuedIn .tickClear ts s = false → t.tick = s.tick)
      ∧ (t.pend = true →
          (tickService { t with gie := true }).tickValue.toNat = (t.tickValue.toNat + 1) % 2 ^ s.params.tickW
            ∧ (tickService { t with gie := true }).pend = false)

/-- R152: TICK_SERVICE, enabled exactly when PEND = 1 and GIE = 1, advances TICK by one modulo 2^TICK_W, clears SLEEP
and PEND, and changes nothing else, in a faulted state too. -/
def Obligations.TickServiceIsAtomic : Prop :=
  ∀ s : State, s.params.wf = true →
    (s.pend = true → s.gie = true →
        takeTurn .tickService s = .next { s with
          tick := BitVec.ofNat 32 ((s.tickValue.toNat + 1) % 2 ^ s.params.tickW), sleep := false, pend := false })
      ∧ (s.pend = false ∨ s.gie = false → takeTurn .tickService s = .next s)

/-- R154: over a run in which no TICK_CLEAR is issued, TICK advances by exactly the services taken, modulo 2^TICK_W. -/
def Obligations.TickCountsServices : Prop :=
  ∀ (ts : List Turn) (s t : State), s.params.wf = true → (∀ x ∈ ts, x ≠ .powerOn) → issuedIn .tickClear ts s = false →
    runTurns ts s = .next t → t.tickValue.toNat = (s.tickValue.toNat + servicesTaken ts s) % 2 ^ s.params.tickW

/-- R155: TICK is never decremented: a step that is not a power-on keeps it, or is a service that adds one, or a service
at its highest value that wraps it to 0, or issues TICK_CLEAR. At TICK = 2^TICK_W − 1 the next service gives 0. -/
def Obligations.TickWrapsAtItsWidth : Prop :=
  (∀ s t : State, s.params.wf = true → s.nextTurn ≠ .powerOn → step s = .next t →
      t.tickValue = s.tickValue
        ∨ s.nextTurn = .tickService ∧ s.serviceEnabled = true ∧ t.tickValue.toNat = s.tickValue.toNat + 1
        ∨ s.nextTurn = .tickService ∧ s.serviceEnabled = true ∧ s.tickValue.toNat = 2 ^ s.params.tickW - 1
            ∧ t.tickValue = 0
        ∨ s.issues .tickClear ∧ t.tickValue = 0)
    ∧ ∀ s : State, s.params.wf = true → s.tickValue.toNat = 2 ^ s.params.tickW - 1 → s.serviceEnabled = true →
        (tickService s).tickValue = 0

/-- R60: from GIE = 0, over a run in which no IE_SET 1 is issued, no service is taken, whatever the program issues after
the run. -/
def Obligations.NoServiceWhileDisabled : Prop :=
  ∀ (ts : List Turn) (s : State), s.gie = false → (∀ x ∈ ts, x ≠ .powerOn) → issuedIn (.ieSet true) ts s = false →
    servicesTaken ts s = 0

/-! ### Encoder family -/

/-- R184, R170, R171: for 0 ≤ m ≤ 9999, ENCODE m completes and changes RESULT only; its digits give m back, bit 17 is
set exactly below 1000 and bit 16 exactly below 100, and bits 31 to 18 are 0. -/
def Obligations.EncodeReconstructsNumber : Prop :=
  ∀ (s : State) (m : Word16), m.toNat ≤ 9999 →
    ∃ r : Word32, exec (.encode m) s = .next { s with result := r, resultValid := true }
      ∧ 1000 * (r.extractLsb' 12 4).toNat + 100 * (r.extractLsb' 8 4).toNat + 10 * (r.extractLsb' 4 4).toNat
          + (r.extractLsb' 0 4).toNat = m.toNat
      ∧ (r.getLsbD 17 = true ↔ m.toNat < 1000) ∧ (r.getLsbD 16 = true ↔ m.toNat < 100)
      ∧ (r.extractLsb' 12 4).toNat ≤ 9 ∧ (r.extractLsb' 8 4).toNat ≤ 9 ∧ (r.extractLsb' 4 4).toNat ≤ 9
      ∧ (r.extractLsb' 0 4).toNat ≤ 9 ∧ r.extractLsb' 18 14 = 0

/-- R173: above 9999, ENCODE and RENDER fault under the `fault` policy; under `legacy` ENCODE gives the word of
m mod 10000, and RENDER sends its bytes while LAST takes the whole of m. -/
def Obligations.NumbersAbove9999 : Prop :=
  ∀ (s : State) (m : Word16), 9999 < m.toNat →
    (s.params.overPolicy = .fault →
        exec (.encode m) s = .next (raiseFault .outOfRange (encode (.encode m)) s)
          ∧ exec (.render m) s = .next (raiseFault .outOfRange (encode (.render m)) s))
      ∧ (s.params.overPolicy = .legacy →
          exec (.encode m) s = exec (.encode (BitVec.ofNat 16 (m.toNat % 10000))) s
            ∧ (s.ready → s.last ≠ some m →
                ∃ t u, exec (.render m) s = .next t ∧ runTurns (hostTurns 181) t = .next u ∧ u.last = some m
                  ∧ u.trace = s.trace
                      ++ (renderBytes s.params (BitVec.ofNat 16 (m.toNat % 10000))).flatMap (writeEvents display)))

/-- R180, R181: RENDER from a ready state, of a number in range that LAST does not hold. 181 more turns of HOST complete
it: the seven writes to DISPLAY in order, LAST the number, RESULT and everything else unchanged. -/
def Obligations.RenderSendsSevenWrites : Prop :=
  ∀ (s : State) (m : Word16), s.ready → overRange s.params m = false → s.last ≠ some m →
    ∃ t, exec (.render m) s = .next t
      ∧ t.cs = s.cs.set display false ∧ t.trace = s.trace ++ [.cs display false]
      ∧ runTurns (hostTurns 181) t = .next { s with
          dout := (dbyte s.params (m.toNat % 10) false).getLsbD 0
          sck := false
          last := some m
          trace := s.trace ++ (renderBytes s.params m).flatMap (writeEvents display) }

/-- R181, R174, R172: the seven bytes, for a number in 0..9999: RESET, DECIMAL, the mask, then thousands or blank,
hundreds or blank, tens and units, each digit as its binary value or its ASCII character. -/
def Obligations.RenderBytesOfNumber : Prop :=
  ∀ (p : Params) (m : Word16), m.toNat ≤ 9999 →
    ∃ b3 b2 b1 b0 : Byte, renderBytes p m = [0x76, 0x77, p.dpMask, b3, b2, b1, b0]
      ∧ (m.toNat < 1000 → b3 = p.blankByte) ∧ (m.toNat < 100 → b2 = p.blankByte)
      ∧ (p.digitStyle = .binary →
          (1000 ≤ m.toNat → b3.toNat = m.toNat / 1000) ∧ (100 ≤ m.toNat → b2.toNat = m.toNat / 100 % 10)
            ∧ b1.toNat = m.toNat / 10 % 10 ∧ b0.toNat = m.toNat % 10)
      ∧ (p.digitStyle = .ascii →
          (1000 ≤ m.toNat → b3.toNat = 0x30 + m.toNat / 1000)
            ∧ (100 ≤ m.toNat → b2.toNat = 0x30 + m.toNat / 100 % 10)
            ∧ b1.toNat = 0x30 + m.toNat / 10 % 10 ∧ b0.toNat = 0x30 + m.toNat % 10)

/-- R180: a RENDER of the cached number is one micro-step without any effect, while a selector is active too. -/
def Obligations.CachedRenderIsSuppressed : Prop :=
  ∀ (s : State) (m : Word16), overRange s.params m = false → s.last = some m → exec (.render m) s = .next s

/-- R183: RENDER v ; RENDER v, the first not faulting, emits exactly one seven-write sequence: none of them twice. -/
def Obligations.RenderTwiceSendsOnce : Prop :=
  ∀ (s : State) (m : Word16), s.ready → overRange s.params m = false → s.last ≠ some m →
    ∃ t, runTurns (hostTurns 183) { s with program := mainProgram [.render m, .render m] } = .next t
      ∧ t.finished ∧ t.last = some m
      ∧ t.trace = s.trace ++ (renderBytes s.params m).flatMap (writeEvents display)

/-- R182: DISP_CLEAR from a ready state. 25 more turns of HOST complete it: one write of 0x76 to DISPLAY, LAST none. It
faults with a selector active. With LAST none, a RENDER of any number in range starts its transactions. -/
def Obligations.DispClearInvalidatesCache : Prop :=
  ∀ s : State,
    (∀ w, decode w = .instr .dispClear ↔ w = 0xF00000#24)
      ∧ (s.ready →
          ∃ t, exec .dispClear s = .next t
            ∧ t.cs = s.cs.set display false ∧ t.trace = s.trace ++ [.cs display false]
            ∧ runTurns (hostTurns 25) t = .next { s with
                dout := false
                sck := false
                last := none
                trace := s.trace ++ writeEvents display 0x76 })
      ∧ (s.busy = true → exec .dispClear s = .next (raiseFault .busOverlap 0xF00000 s))
      ∧ ∀ m, s.ready → s.last = none → overRange s.params m = false →
          ∃ t, exec (.render m) s = .next t ∧ t.trace = s.trace ++ [.cs display false]

/-- R257, R63: a host BUS_WRITE to DISPLAY leaves LAST as it was, so the next RENDER of the cached number is suppressed;
after a DISP_CLEAR it sends. -/
def Obligations.HostWriteBypassesCache : Prop :=
  ∀ (s : State) (m : Word16) (byte : Byte), s.ready → 2 ≤ s.params.nsel → overRange s.params m = false →
    s.last = some m →
    (∃ t, runTurns (hostTurns 27) { s with program := mainProgram [.busWrite 1 byte, .render m] } = .next t
        ∧ t.finished ∧ t.trace = s.trace ++ writeEvents display byte ∧ t.last = some m)
      ∧ ∃ t, runTurns (hostTurns 208) { s with program := mainProgram [.dispClear, .render m] } = .next t
        ∧ t.finished ∧ t.last = some m
        ∧ t.trace = s.trace ++ writeEvents display 0x76 ++ (renderBytes s.params m).flatMap (writeEvents display)

/-! ### Host software -/

/-- R230, R231: a check that is due advances next_due by exactly one PERIOD, however late it is, and one that is not due
leaves it. -/
def Obligations.DueCheckAdvancesOnePeriod : Prop :=
  ∀ (p : Params) (h : HostParams) (now : Word32) (r : RefreshSchedule), p.wf = true →
    (r.nextDue.toNat ≤ now.toNat →
        (r.check p h now).nextDue.toNat = (r.nextDue.toNat + period h) % 2 ^ p.tickW
          ∧ r.commands now = [.busRead 0 14, .wait])
      ∧ (now.toNat < r.nextDue.toNat → r.check p h now = r ∧ r.commands now = [.wait])
end

