-- ==== Sys2Proof/Laws/Encoding.lean ====
section
/-! SUPPORT. What a command word's bits are, and what a word that selects a row says about its op (spec 30_encoding.md
R70, R73). -/

namespace Sys2Proof

/-- Selecting a row, as an equation. -/
theorem selectedBy_iff (w : Word24) (o : Opcode) :
    Opcode.selectedBy w o = true ↔ (w &&& o.row.mask) = o.row.pattern := by
  simp [Opcode.selectedBy]

/-- Every bit of a command word, by the field it stands in. -/
theorem getLsbD_commandWord (op sel : BitVec 4) (v : Word16) (i : Nat) :
    (commandWord op sel v).getLsbD i =
      if i < 16 then v.getLsbD i else if i < 20 then sel.getLsbD (i - 16) else op.getLsbD (i - 20) := by
  show BitVec.getLsbD (w := 4 + 4 + 16) (op ++ sel ++ v) i = _
  simp only [BitVec.getLsbD_append]
  split
  · rfl
  · split <;> split <;> first | rfl | omega

/-- The same, for a bit read by index. -/
theorem getElem_commandWord (op sel : BitVec 4) (v : Word16) (i : Nat) (h : i < 24) :
    (commandWord op sel v)[i] =
      if i < 16 then v.getLsbD i else if i < 20 then sel.getLsbD (i - 16) else op.getLsbD (i - 20) := by
  rw [BitVec.getElem_eq_testBit_toNat]
  exact getLsbD_commandWord op sel v i

/-- A word that selects a row has that row's op. -/
theorem opField_of_selectedBy (w : Word24) (o : Opcode) (h : Opcode.selectedBy w o = true) :
    opField w = opField o.row.pattern := by
  rw [selectedBy_iff] at h
  rw [← h]
  unfold opField
  cases o <;> (apply BitVec.eq_of_getLsbD_eq; intro i hi; interval_cases i <;> simp [Opcode.row])

/-- The op tells the rows apart. -/
theorem opField_pattern_injective (o o' : Opcode) (h : opField o.row.pattern = opField o'.row.pattern) : o = o' := by
  revert h
  cases o <;> cases o' <;> decide

/-- No row has op 0. -/
theorem opField_pattern_ne_zero (o : Opcode) : opField o.row.pattern ≠ 0 := by
  cases o <;> decide

/-- Every row is in the list the decoder searches. -/
theorem mem_all (o : Opcode) : o ∈ Opcode.all := by
  cases o <;> decide

/-- The operands a row reads are those of a command of that row. -/
@[simp] theorem opcode_operands (w : Word24) (o : Opcode) : (o.operands w).opcode = o := by
  cases o <;> rfl

end Sys2Proof
end

