-- ==== Sys2Proof/Laws/State.lean ====
section
/-! SUPPORT. One lemma per field per update of the state, so that no later proof unfolds a record update. -/

namespace Sys2Proof.Machine

/-! ### setCs -/

@[simp] theorem setCs_params (k : Nat) (v : Level) (s : State) : (setCs k v s).params = s.params := rfl
@[simp] theorem setCs_result (k : Nat) (v : Level) (s : State) : (setCs k v s).result = s.result := rfl
@[simp] theorem setCs_resultValid (k : Nat) (v : Level) (s : State) : (setCs k v s).resultValid = s.resultValid := rfl
@[simp] theorem setCs_fault (k : Nat) (v : Level) (s : State) : (setCs k v s).fault = s.fault := rfl
@[simp] theorem setCs_faultCmd (k : Nat) (v : Level) (s : State) : (setCs k v s).faultCmd = s.faultCmd := rfl
@[simp] theorem setCs_gie (k : Nat) (v : Level) (s : State) : (setCs k v s).gie = s.gie := rfl
@[simp] theorem setCs_pend (k : Nat) (v : Level) (s : State) : (setCs k v s).pend = s.pend := rfl
@[simp] theorem setCs_sleep (k : Nat) (v : Level) (s : State) : (setCs k v s).sleep = s.sleep := rfl
@[simp] theorem setCs_ten (k : Nat) (v : Level) (s : State) : (setCs k v s).ten = s.ten := rfl
@[simp] theorem setCs_top (k : Nat) (v : Level) (s : State) : (setCs k v s).top = s.top := rfl
@[simp] theorem setCs_tcnt (k : Nat) (v : Level) (s : State) : (setCs k v s).tcnt = s.tcnt := rfl
@[simp] theorem setCs_tick (k : Nat) (v : Level) (s : State) : (setCs k v s).tick = s.tick := rfl
@[simp] theorem setCs_last (k : Nat) (v : Level) (s : State) : (setCs k v s).last = s.last := rfl
@[simp] theorem setCs_sck (k : Nat) (v : Level) (s : State) : (setCs k v s).sck = s.sck := rfl
@[simp] theorem setCs_dout (k : Nat) (v : Level) (s : State) : (setCs k v s).dout = s.dout := rfl
@[simp] theorem setCs_cs (k : Nat) (v : Level) (s : State) : (setCs k v s).cs = s.cs.set k v := rfl
@[simp] theorem setCs_seq (k : Nat) (v : Level) (s : State) : (setCs k v s).seq = s.seq := rfl
@[simp] theorem setCs_trace (k : Nat) (v : Level) (s : State) : (setCs k v s).trace = s.trace ++ [.cs k v] := rfl
@[simp] theorem setCs_program (k : Nat) (v : Level) (s : State) : (setCs k v s).program = s.program := rfl
@[simp] theorem setCs_schedule (k : Nat) (v : Level) (s : State) : (setCs k v s).schedule = s.schedule := rfl
@[simp] theorem setCs_rounds (k : Nat) (v : Level) (s : State) : (setCs k v s).rounds = s.rounds := rfl
@[simp] theorem setCs_dinInput (k : Nat) (v : Level) (s : State) : (setCs k v s).dinInput = s.dinInput := rfl
@[simp] theorem setCs_draws (k : Nat) (v : Level) (s : State) : (setCs k v s).draws = s.draws := rfl
@[simp] theorem setCs_powerOns (k : Nat) (v : Level) (s : State) : (setCs k v s).powerOns = s.powerOns := rfl

/-! ### setClock -/

@[simp] theorem setClock_params (v : Level) (s : State) : (setClock v s).params = s.params := rfl
@[simp] theorem setClock_result (v : Level) (s : State) : (setClock v s).result = s.result := rfl
@[simp] theorem setClock_resultValid (v : Level) (s : State) : (setClock v s).resultValid = s.resultValid := rfl
@[simp] theorem setClock_fault (v : Level) (s : State) : (setClock v s).fault = s.fault := rfl
@[simp] theorem setClock_faultCmd (v : Level) (s : State) : (setClock v s).faultCmd = s.faultCmd := rfl
@[simp] theorem setClock_gie (v : Level) (s : State) : (setClock v s).gie = s.gie := rfl
@[simp] theorem setClock_pend (v : Level) (s : State) : (setClock v s).pend = s.pend := rfl
@[simp] theorem setClock_sleep (v : Level) (s : State) : (setClock v s).sleep = s.sleep := rfl
@[simp] theorem setClock_ten (v : Level) (s : State) : (setClock v s).ten = s.ten := rfl
@[simp] theorem setClock_top (v : Level) (s : State) : (setClock v s).top = s.top := rfl
@[simp] theorem setClock_tcnt (v : Level) (s : State) : (setClock v s).tcnt = s.tcnt := rfl
@[simp] theorem setClock_tick (v : Level) (s : State) : (setClock v s).tick = s.tick := rfl
@[simp] theorem setClock_last (v : Level) (s : State) : (setClock v s).last = s.last := rfl
@[simp] theorem setClock_sck (v : Level) (s : State) : (setClock v s).sck = v := rfl
@[simp] theorem setClock_dout (v : Level) (s : State) : (setClock v s).dout = s.dout := rfl
@[simp] theorem setClock_cs (v : Level) (s : State) : (setClock v s).cs = s.cs := rfl
@[simp] theorem setClock_seq (v : Level) (s : State) : (setClock v s).seq = s.seq := rfl
@[simp] theorem setClock_trace (v : Level) (s : State) : (setClock v s).trace = s.trace ++ [.sck v] := rfl
@[simp] theorem setClock_program (v : Level) (s : State) : (setClock v s).program = s.program := rfl
@[simp] theorem setClock_schedule (v : Level) (s : State) : (setClock v s).schedule = s.schedule := rfl
@[simp] theorem setClock_rounds (v : Level) (s : State) : (setClock v s).rounds = s.rounds := rfl
@[simp] theorem setClock_dinInput (v : Level) (s : State) : (setClock v s).dinInput = s.dinInput := rfl
@[simp] theorem setClock_draws (v : Level) (s : State) : (setClock v s).draws = s.draws := rfl
@[simp] theorem setClock_powerOns (v : Level) (s : State) : (setClock v s).powerOns = s.powerOns := rfl

/-! ### driveData -/

@[simp] theorem driveData_params (v : Level) (s : State) : (driveData v s).params = s.params := rfl
@[simp] theorem driveData_result (v : Level) (s : State) : (driveData v s).result = s.result := rfl
@[simp] theorem driveData_resultValid (v : Level) (s : State) : (driveData v s).resultValid = s.resultValid := rfl
@[simp] theorem driveData_fault (v : Level) (s : State) : (driveData v s).fault = s.fault := rfl
@[simp] theorem driveData_faultCmd (v : Level) (s : State) : (driveData v s).faultCmd = s.faultCmd := rfl
@[simp] theorem driveData_gie (v : Level) (s : State) : (driveData v s).gie = s.gie := rfl
@[simp] theorem driveData_pend (v : Level) (s : State) : (driveData v s).pend = s.pend := rfl
@[simp] theorem driveData_sleep (v : Level) (s : State) : (driveData v s).sleep = s.sleep := rfl
@[simp] theorem driveData_ten (v : Level) (s : State) : (driveData v s).ten = s.ten := rfl
@[simp] theorem driveData_top (v : Level) (s : State) : (driveData v s).top = s.top := rfl
@[simp] theorem driveData_tcnt (v : Level) (s : State) : (driveData v s).tcnt = s.tcnt := rfl
@[simp] theorem driveData_tick (v : Level) (s : State) : (driveData v s).tick = s.tick := rfl
@[simp] theorem driveData_last (v : Level) (s : State) : (driveData v s).last = s.last := rfl
@[simp] theorem driveData_sck (v : Level) (s : State) : (driveData v s).sck = s.sck := rfl
@[simp] theorem driveData_dout (v : Level) (s : State) : (driveData v s).dout = v := rfl
@[simp] theorem driveData_cs (v : Level) (s : State) : (driveData v s).cs = s.cs := rfl
@[simp] theorem driveData_seq (v : Level) (s : State) : (driveData v s).seq = s.seq := rfl
@[simp] theorem driveData_trace (v : Level) (s : State) : (driveData v s).trace = s.trace ++ [.dout v] := rfl
@[simp] theorem driveData_program (v : Level) (s : State) : (driveData v s).program = s.program := rfl
@[simp] theorem driveData_schedule (v : Level) (s : State) : (driveData v s).schedule = s.schedule := rfl
@[simp] theorem driveData_rounds (v : Level) (s : State) : (driveData v s).rounds = s.rounds := rfl
@[simp] theorem driveData_dinInput (v : Level) (s : State) : (driveData v s).dinInput = s.dinInput := rfl
@[simp] theorem driveData_draws (v : Level) (s : State) : (driveData v s).draws = s.draws := rfl
@[simp] theorem driveData_powerOns (v : Level) (s : State) : (driveData v s).powerOns = s.powerOns := rfl

/-! ### sampleDin -/

@[simp] theorem sampleDin_params (k : Option Nat) (s : State) : (sampleDin k s).params = s.params := rfl
@[simp] theorem sampleDin_result (k : Option Nat) (s : State) : (sampleDin k s).result = s.result := rfl
@[simp] theorem sampleDin_resultValid (k : Option Nat) (s : State) : (sampleDin k s).resultValid = s.resultValid := rfl
@[simp] theorem sampleDin_fault (k : Option Nat) (s : State) : (sampleDin k s).fault = s.fault := rfl
@[simp] theorem sampleDin_faultCmd (k : Option Nat) (s : State) : (sampleDin k s).faultCmd = s.faultCmd := rfl
@[simp] theorem sampleDin_gie (k : Option Nat) (s : State) : (sampleDin k s).gie = s.gie := rfl
@[simp] theorem sampleDin_pend (k : Option Nat) (s : State) : (sampleDin k s).pend = s.pend := rfl
@[simp] theorem sampleDin_sleep (k : Option Nat) (s : State) : (sampleDin k s).sleep = s.sleep := rfl
@[simp] theorem sampleDin_ten (k : Option Nat) (s : State) : (sampleDin k s).ten = s.ten := rfl
@[simp] theorem sampleDin_top (k : Option Nat) (s : State) : (sampleDin k s).top = s.top := rfl
@[simp] theorem sampleDin_tcnt (k : Option Nat) (s : State) : (sampleDin k s).tcnt = s.tcnt := rfl
@[simp] theorem sampleDin_tick (k : Option Nat) (s : State) : (sampleDin k s).tick = s.tick := rfl
@[simp] theorem sampleDin_last (k : Option Nat) (s : State) : (sampleDin k s).last = s.last := rfl
@[simp] theorem sampleDin_sck (k : Option Nat) (s : State) : (sampleDin k s).sck = s.sck := rfl
@[simp] theorem sampleDin_dout (k : Option Nat) (s : State) : (sampleDin k s).dout = s.dout := rfl
@[simp] theorem sampleDin_cs (k : Option Nat) (s : State) : (sampleDin k s).cs = s.cs := rfl
@[simp] theorem sampleDin_seq (k : Option Nat) (s : State) : (sampleDin k s).seq = s.seq := rfl
@[simp] theorem sampleDin_trace (k : Option Nat) (s : State) : (sampleDin k s).trace = s.trace ++ [.sample k s.din] := rfl
@[simp] theorem sampleDin_program (k : Option Nat) (s : State) : (sampleDin k s).program = s.program := rfl
@[simp] theorem sampleDin_schedule (k : Option Nat) (s : State) : (sampleDin k s).schedule = s.schedule := rfl
@[simp] theorem sampleDin_rounds (k : Option Nat) (s : State) : (sampleDin k s).rounds = s.rounds := rfl
@[simp] theorem sampleDin_dinInput (k : Option Nat) (s : State) : (sampleDin k s).dinInput = s.dinInput.tail := rfl
@[simp] theorem sampleDin_draws (k : Option Nat) (s : State) : (sampleDin k s).draws = s.draws + 1 := rfl
@[simp] theorem sampleDin_powerOns (k : Option Nat) (s : State) : (sampleDin k s).powerOns = s.powerOns := rfl

/-! ### writeResult -/

@[simp] theorem writeResult_params (v : Word32) (s : State) : (writeResult v s).params = s.params := rfl
@[simp] theorem writeResult_result (v : Word32) (s : State) : (writeResult v s).result = v := rfl
@[simp] theorem writeResult_resultValid (v : Word32) (s : State) : (writeResult v s).resultValid = true := rfl
@[simp] theorem writeResult_fault (v : Word32) (s : State) : (writeResult v s).fault = s.fault := rfl
@[simp] theorem writeResult_faultCmd (v : Word32) (s : State) : (writeResult v s).faultCmd = s.faultCmd := rfl
@[simp] theorem writeResult_gie (v : Word32) (s : State) : (writeResult v s).gie = s.gie := rfl
@[simp] theorem writeResult_pend (v : Word32) (s : State) : (writeResult v s).pend = s.pend := rfl
@[simp] theorem writeResult_sleep (v : Word32) (s : State) : (writeResult v s).sleep = s.sleep := rfl
@[simp] theorem writeResult_ten (v : Word32) (s : State) : (writeResult v s).ten = s.ten := rfl
@[simp] theorem writeResult_top (v : Word32) (s : State) : (writeResult v s).top = s.top := rfl
@[simp] theorem writeResult_tcnt (v : Word32) (s : State) : (writeResult v s).tcnt = s.tcnt := rfl
@[simp] theorem writeResult_tick (v : Word32) (s : State) : (writeResult v s).tick = s.tick := rfl
@[simp] theorem writeResult_last (v : Word32) (s : State) : (writeResult v s).last = s.last := rfl
@[simp] theorem writeResult_sck (v : Word32) (s : State) : (writeResult v s).sck = s.sck := rfl
@[simp] theorem writeResult_dout (v : Word32) (s : State) : (writeResult v s).dout = s.dout := rfl
@[simp] theorem writeResult_cs (v : Word32) (s : State) : (writeResult v s).cs = s.cs := rfl
@[simp] theorem writeResult_seq (v : Word32) (s : State) : (writeResult v s).seq = s.seq := rfl
@[simp] theorem writeResult_trace (v : Word32) (s : State) : (writeResult v s).trace = s.trace := rfl
@[simp] theorem writeResult_program (v : Word32) (s : State) : (writeResult v s).program = s.program := rfl
@[simp] theorem writeResult_schedule (v : Word32) (s : State) : (writeResult v s).schedule = s.schedule := rfl
@[simp] theorem writeResult_rounds (v : Word32) (s : State) : (writeResult v s).rounds = s.rounds := rfl
@[simp] theorem writeResult_dinInput (v : Word32) (s : State) : (writeResult v s).dinInput = s.dinInput := rfl
@[simp] theorem writeResult_draws (v : Word32) (s : State) : (writeResult v s).draws = s.draws := rfl
@[simp] theorem writeResult_powerOns (v : Word32) (s : State) : (writeResult v s).powerOns = s.powerOns := rfl

/-! ### writeTick -/

@[simp] theorem writeTick_params (v : Word32) (s : State) : (writeTick v s).params = s.params := rfl
@[simp] theorem writeTick_result (v : Word32) (s : State) : (writeTick v s).result = s.result := rfl
@[simp] theorem writeTick_resultValid (v : Word32) (s : State) : (writeTick v s).resultValid = s.resultValid := rfl
@[simp] theorem writeTick_fault (v : Word32) (s : State) : (writeTick v s).fault = s.fault := rfl
@[simp] theorem writeTick_faultCmd (v : Word32) (s : State) : (writeTick v s).faultCmd = s.faultCmd := rfl
@[simp] theorem writeTick_gie (v : Word32) (s : State) : (writeTick v s).gie = s.gie := rfl
@[simp] theorem writeTick_pend (v : Word32) (s : State) : (writeTick v s).pend = s.pend := rfl
@[simp] theorem writeTick_sleep (v : Word32) (s : State) : (writeTick v s).sleep = s.sleep := rfl
@[simp] theorem writeTick_ten (v : Word32) (s : State) : (writeTick v s).ten = s.ten := rfl
@[simp] theorem writeTick_top (v : Word32) (s : State) : (writeTick v s).top = s.top := rfl
@[simp] theorem writeTick_tcnt (v : Word32) (s : State) : (writeTick v s).tcnt = s.tcnt := rfl
@[simp] theorem writeTick_tick (v : Word32) (s : State) : (writeTick v s).tick = truncTo s.params.tickW v := rfl
@[simp] theorem writeTick_last (v : Word32) (s : State) : (writeTick v s).last = s.last := rfl
@[simp] theorem writeTick_sck (v : Word32) (s : State) : (writeTick v s).sck = s.sck := rfl
@[simp] theorem writeTick_dout (v : Word32) (s : State) : (writeTick v s).dout = s.dout := rfl
@[simp] theorem writeTick_cs (v : Word32) (s : State) : (writeTick v s).cs = s.cs := rfl
@[simp] theorem writeTick_seq (v : Word32) (s : State) : (writeTick v s).seq = s.seq := rfl
@[simp] theorem writeTick_trace (v : Word32) (s : State) : (writeTick v s).trace = s.trace := rfl
@[simp] theorem writeTick_program (v : Word32) (s : State) : (writeTick v s).program = s.program := rfl
@[simp] theorem writeTick_schedule (v : Word32) (s : State) : (writeTick v s).schedule = s.schedule := rfl
@[simp] theorem writeTick_rounds (v : Word32) (s : State) : (writeTick v s).rounds = s.rounds := rfl
@[simp] theorem writeTick_dinInput (v : Word32) (s : State) : (writeTick v s).dinInput = s.dinInput := rfl
@[simp] theorem writeTick_draws (v : Word32) (s : State) : (writeTick v s).draws = s.draws := rfl
@[simp] theorem writeTick_powerOns (v : Word32) (s : State) : (writeTick v s).powerOns = s.powerOns := rfl

/-! ### advance -/

@[simp] theorem advance_params (s : State) : s.advance.params = s.params := rfl
@[simp] theorem advance_result (s : State) : s.advance.result = s.result := rfl
@[simp] theorem advance_resultValid (s : State) : s.advance.resultValid = s.resultValid := rfl
@[simp] theorem advance_fault (s : State) : s.advance.fault = s.fault := rfl
@[simp] theorem advance_faultCmd (s : State) : s.advance.faultCmd = s.faultCmd := rfl
@[simp] theorem advance_gie (s : State) : s.advance.gie = s.gie := rfl
@[simp] theorem advance_pend (s : State) : s.advance.pend = s.pend := rfl
@[simp] theorem advance_sleep (s : State) : s.advance.sleep = s.sleep := rfl
@[simp] theorem advance_ten (s : State) : s.advance.ten = s.ten := rfl
@[simp] theorem advance_top (s : State) : s.advance.top = s.top := rfl
@[simp] theorem advance_tcnt (s : State) : s.advance.tcnt = s.tcnt := rfl
@[simp] theorem advance_tick (s : State) : s.advance.tick = s.tick := rfl
@[simp] theorem advance_last (s : State) : s.advance.last = s.last := rfl
@[simp] theorem advance_sck (s : State) : s.advance.sck = s.sck := rfl
@[simp] theorem advance_dout (s : State) : s.advance.dout = s.dout := rfl
@[simp] theorem advance_cs (s : State) : s.advance.cs = s.cs := rfl
@[simp] theorem advance_seq (s : State) : s.advance.seq = s.seq := rfl
@[simp] theorem advance_trace (s : State) : s.advance.trace = s.trace := rfl
@[simp] theorem advance_program (s : State) : s.advance.program = s.program := rfl
@[simp] theorem advance_schedule (s : State) : s.advance.schedule = s.comingTurns.tail := rfl
@[simp] theorem advance_rounds (s : State) :
    s.advance.rounds = (if s.schedule.isEmpty then s.rounds + 1 else s.rounds) := rfl
@[simp] theorem advance_dinInput (s : State) : s.advance.dinInput = s.dinInput := rfl
@[simp] theorem advance_draws (s : State) : s.advance.draws = s.draws := rfl
@[simp] theorem advance_powerOns (s : State) : s.advance.powerOns = s.powerOns := rfl

end Sys2Proof.Machine
end

