-- ==== Sys2Proof/Laws/Ops.lean ====
section
/-! SUPPORT. What each shared operation of the commands can do, once: the widths, the fault action, the micro-steps and
their frames. -/

namespace Sys2Proof.Machine

/-! ### Widths -/

/-- The ranges of R7, as inequalities. -/
theorem params_wf_iff (p : Params) : p.wf = true ↔
    (2 ≤ p.nsel ∧ p.nsel ≤ 16 ∧ 16 ≤ p.resultW ∧ p.resultW ≤ 32 ∧ 16 ≤ p.tickW ∧ p.tickW ≤ 32
      ∧ ∀ v, p.renderCacheReset = some v → v.toNat ≤ 9999) := by
  unfold Params.wf
  cases p.renderCacheReset <;> simp [and_assoc]

theorem truncTo_toNat (w : Nat) (h : w ≤ 32) (v : Word32) : (truncTo w v).toNat = v.toNat % 2 ^ w := by
  have := h
  simp only [truncTo, BitVec.toNat_ofNat]
  exact Nat.mod_eq_of_lt (lt_of_le_of_lt (Nat.mod_le _ _) v.isLt)

theorem truncTo_lt (w : Nat) (h : w ≤ 32) (v : Word32) : (truncTo w v).toNat < 2 ^ w := by
  rw [truncTo_toNat w h]
  exact Nat.mod_lt _ (by positivity)

theorem truncTo_truncTo (w : Nat) (h : w ≤ 32) (v : Word32) : truncTo w (truncTo w v) = truncTo w v := by
  apply BitVec.eq_of_toNat_eq
  rw [truncTo_toNat w h, Nat.mod_eq_of_lt (truncTo_lt w h v)]

/-! ### The fault action -/

theorem raiseFault_first (c : FaultCode) (w : Word24) (s : State) (h : s.fault = 0) :
    raiseFault c w s = { s with fault := c.code, faultCmd := w, seq := .idle } := by
  rw [raiseFault, if_pos h]

/-- Nothing but FAULT, FAULT_CMD and SEQ changes. -/
theorem raiseFault_frame (c : FaultCode) (w : Word24) (s : State) :
    raiseFault c w s
      = { s with fault := (raiseFault c w s).fault, faultCmd := (raiseFault c w s).faultCmd, seq := .idle } := by
  unfold raiseFault
  split <;> rfl

theorem code_ne_zero (c : FaultCode) : c.code ≠ 0 := by
  cases c <;> decide

/-! ### The micro-steps -/

/-- A micro-step of a write changes lines and the trace only. -/
theorem writeMicro_frame (j : WriteJob) (s : State) :
    (writeMicro j s).1 = { s with
      cs := (writeMicro j s).1.cs, sck := (writeMicro j s).1.sck, dout := (writeMicro j s).1.dout
      trace := (writeMicro j s).1.trace } := by
  unfold writeMicro
  cases j.ph <;> first | rfl | (cases j.i <;> rfl)

/-- A micro-step of a read changes CS, SCK, RESULT, the draws and the trace only. -/
theorem readMicro_frame (j : ReadJob) (s : State) :
    (readMicro j s).1 = { s with
      cs := (readMicro j s).1.cs, sck := (readMicro j s).1.sck, trace := (readMicro j s).1.trace
      result := (readMicro j s).1.result, resultValid := (readMicro j s).1.resultValid
      dinInput := (readMicro j s).1.dinInput, draws := (readMicro j s).1.draws } := by
  unfold readMicro
  cases j.ph <;> rfl

/-- A micro-step of a byte sequence changes lines, the trace, SEQ and LAST only. -/
theorem streamMicro_frame (r : Nat → WriteJob → Seq) (l : Option Word16) (b : List Byte) (k : Nat) (j : WriteJob)
    (s : State) :
    streamMicro r l b k j s = { s with
      cs := (streamMicro r l b k j s).cs, sck := (streamMicro r l b k j s).sck
      dout := (streamMicro r l b k j s).dout, trace := (streamMicro r l b k j s).trace
      seq := (streamMicro r l b k j s).seq, last := (streamMicro r l b k j s).last } := by
  have h := writeMicro_frame j s
  unfold streamMicro
  rcases hw : writeMicro j s with ⟨s', _ | j'⟩ <;> rw [hw] at h <;> dsimp only at h ⊢
  · cases b[k + 1]? <;> dsimp only <;> rw [h]
  · rw [h]

/-- A micro-step of the command in progress changes no flag, no timer register, no TICK, no fault, no parameter and no
input but the draws. -/
theorem continueCommand_frame (s : State) :
    continueCommand s = { s with
      cs := (continueCommand s).cs, sck := (continueCommand s).sck, dout := (continueCommand s).dout
      trace := (continueCommand s).trace, seq := (continueCommand s).seq, last := (continueCommand s).last
      result := (continueCommand s).result, resultValid := (continueCommand s).resultValid
      dinInput := (continueCommand s).dinInput, draws := (continueCommand s).draws } := by
  unfold continueCommand
  split
  · rfl
  · rename_i j _
    have h := writeMicro_frame j s
    rcases hw : writeMicro j s with ⟨s', _ | j'⟩ <;> rw [hw] at h <;> dsimp only at h ⊢ <;> rw [h]
  · rename_i j _
    have h := readMicro_frame j s
    rcases hw : readMicro j s with ⟨s', _ | j'⟩ <;> rw [hw] at h <;> dsimp only at h ⊢ <;> rw [h]
  · split <;> rfl
  · rw [streamMicro_frame]
  · rw [streamMicro_frame]

/-! ### The commands -/

/-- No command stops the machine. -/
theorem exec_next (i : Instr) (s : State) : ∃ t, exec i s = .next t := by
  cases i <;>
    simp only [exec, execBusWrite, execBusRead, execCsAssert, execCsDeassert, execDataDrive, execClkSet,
      execDataSample, execTickRead, execTickClear, execWait, execIeSet, execTimerCfg, execEncode, execRender,
      execDispClear] <;>
    (repeat' split) <;> exact ⟨_, rfl⟩

end Sys2Proof.Machine
end

