-- ==== Sys2Proof/Laws/PerInstr.lean ====
section
/-! SUPPORT. A statement made per command: its encoding stands in its own row of the opcode map (spec 30_encoding.md
R73). -/

namespace Sys2Proof.Laws.EncodedRow

/-- The word of the command selects the row of its mnemonic. -/
def Statement (i : Instr) : Prop := Opcode.selectedBy (encode i) i.opcode = true

/-- To select its row, a word needs its 24 masked bits to be the row's. -/
theorem selected_of_bits (i : Instr)
    (h : ∀ j, j < 24 → (Sys2Proof.encode i &&& i.opcode.row.mask).getLsbD j = i.opcode.row.pattern.getLsbD j) :
    Statement i := by
  unfold Statement
  rw [selectedBy_iff]
  exact BitVec.eq_of_getLsbD_eq fun j hj => h j hj

theorem busWrite (sel : BitVec 4) (b : Byte) : Statement (.busWrite sel b) :=
  selected_of_bits _ (by
    intro j hj
    interval_cases j <;> simp [Opcode.row, Instr.opcode, Sys2Proof.encode, getElem_commandWord])

theorem busRead (sel : BitVec 4) (n : Word16) : Statement (.busRead sel n) :=
  selected_of_bits _ (by
    intro j hj
    interval_cases j <;> simp [Opcode.row, Instr.opcode, Sys2Proof.encode, getElem_commandWord])

theorem csAssert (sel : BitVec 4) : Statement (.csAssert sel) :=
  selected_of_bits _ (by
    intro j hj
    interval_cases j <;> simp [Opcode.row, Instr.opcode, Sys2Proof.encode, getElem_commandWord])

theorem csDeassert (sel : BitVec 4) : Statement (.csDeassert sel) :=
  selected_of_bits _ (by
    intro j hj
    interval_cases j <;> simp [Opcode.row, Instr.opcode, Sys2Proof.encode, getElem_commandWord])

theorem dataDrive (b : Level) : Statement (.dataDrive b) := by
  unfold Statement
  cases b <;> decide

theorem clkSet (b : Level) : Statement (.clkSet b) := by
  unfold Statement
  cases b <;> decide

theorem dataSample : Statement .dataSample := by
  unfold Statement
  decide

theorem tickRead : Statement .tickRead := by
  unfold Statement
  decide

theorem tickClear : Statement .tickClear := by
  unfold Statement
  decide

theorem wait : Statement .wait := by
  unfold Statement
  decide

theorem ieSet (b : Level) : Statement (.ieSet b) := by
  unfold Statement
  cases b <;> decide

theorem timerCfg (top : Word16) : Statement (.timerCfg top) :=
  selected_of_bits _ (by
    intro j hj
    interval_cases j <;> simp [Opcode.row, Instr.opcode, Sys2Proof.encode, getElem_commandWord])

theorem encode (number : Word16) : Statement (.encode number) :=
  selected_of_bits _ (by
    intro j hj
    interval_cases j <;> simp [Opcode.row, Instr.opcode, Sys2Proof.encode, getElem_commandWord])

theorem render (number : Word16) : Statement (.render number) :=
  selected_of_bits _ (by
    intro j hj
    interval_cases j <;> simp [Opcode.row, Instr.opcode, Sys2Proof.encode, getElem_commandWord])

theorem dispClear : Statement .dispClear := by
  unfold Statement
  decide

end Sys2Proof.Laws.EncodedRow
end

