-- ==== Sys2Proof/Laws/Turns.lean ====
section
/-! SUPPORT. What each agent's turn can do, once, and how runs of turns are put together. -/

namespace Sys2Proof.Machine

/-! ### HOST -/

theorem hostTurn_faulted (s : State) (h : s.fault ≠ 0) : hostTurn s = .next s := by
  rw [hostTurn, if_pos h]

theorem hostTurn_nothing (s : State) (hq : s.seq = .idle) (hp : s.program = []) : hostTurn s = .next s := by
  simp [hostTurn, hq, hp]

theorem hostTurn_issue (s : State) (c : HostCmd) (rest : List HostCmd) (h : s.fault = 0) (hq : s.seq = .idle)
    (hp : s.program = c :: rest) : hostTurn s = issue c { s with program := rest } := by
  simp [hostTurn, h, hq, hp]

theorem hostTurn_continue (s : State) (h : s.fault = 0) (hq : s.seq ≠ .idle) :
    hostTurn s = .next (continueCommand s) := by
  simp only [hostTurn, h]
  cases hh : s.seq <;> simp_all

/-- HOST is stuck, has nothing to issue, issues its next word, or goes on with the command in progress. -/
theorem hostTurn_cases (s : State) :
    (s.fault ≠ 0 ∧ hostTurn s = .next s)
    ∨ (s.fault = 0 ∧ s.seq = .idle ∧ s.program = [] ∧ hostTurn s = .next s)
    ∨ (∃ c rest, s.fault = 0 ∧ s.seq = .idle ∧ s.program = c :: rest
        ∧ hostTurn s = issue c { s with program := rest })
    ∨ (s.fault = 0 ∧ s.seq ≠ .idle ∧ hostTurn s = .next (continueCommand s)) := by
  by_cases h : s.fault = 0
  · by_cases hq : s.seq = .idle
    · cases hp : s.program with
      | nil => exact .inr (.inl ⟨h, hq, rfl, hostTurn_nothing s hq hp⟩)
      | cons c rest => exact .inr (.inr (.inl ⟨c, rest, h, hq, rfl, hostTurn_issue s c rest h hq hp⟩))
    · exact .inr (.inr (.inr ⟨h, hq, hostTurn_continue s h hq⟩))
  · exact .inl ⟨h, hostTurn_faulted s h⟩

/-! ### TIMER -/

theorem timerClk_off (s : State) (h : s.ten = false) : timerClk s = s := by
  simp [timerClk, State.timerEnabled, h]

theorem timerClk_roll (s : State) (h : s.ten = true) (r : s.tcnt = s.top - 1) :
    timerClk s = { s with tcnt := 0, pend := true } := by
  rw [timerClk, State.timerEnabled, if_pos h, if_pos (by simpa [State.rollsOver] using r)]

theorem timerClk_count (s : State) (h : s.ten = true) (r : s.tcnt ≠ s.top - 1) :
    timerClk s = { s with tcnt := s.tcnt + 1 } := by
  rw [timerClk, State.timerEnabled, if_pos h, if_neg (by simpa [State.rollsOver] using r)]

/-- TIMER changes TCNT and PEND only. -/
theorem timerClk_frame (s : State) :
    timerClk s = { s with tcnt := (timerClk s).tcnt, pend := (timerClk s).pend } := by
  unfold timerClk
  split
  · split <;> rfl
  · rfl

/-! ### SERVICE -/

theorem tickService_on (s : State) (h : s.pend = true) (g : s.gie = true) :
    tickService s = { s with
      tick := truncTo s.params.tickW (s.tickValue + 1), sleep := false, pend := false } := by
  rw [tickService, if_pos (by simp [State.serviceEnabled, h, g])]
  rfl

theorem tickService_off (s : State) (h : s.pend = false ∨ s.gie = false) : tickService s = s := by
  rw [tickService, if_neg (by simp [State.serviceEnabled]; rcases h with h | h <;> simp [h])]

/-- SERVICE changes TICK, SLEEP and PEND only. -/
theorem tickService_frame (s : State) :
    tickService s = { s with
      tick := (tickService s).tick, sleep := (tickService s).sleep, pend := (tickService s).pend } := by
  unfold tickService
  split <;> rfl

/-! ### The read port -/

@[simp] theorem readTurn_eq (p : Port) (s : State) : readTurn p s = s := rfl

theorem readPort_result (s : State) (h : s.resultValid = true) : readPort .result s = .value s.result := by
  simp [readPort, h]

theorem readPort_noResult (s : State) (h : s.resultValid = false) : readPort .result s = .fault := by
  simp [readPort, h]

/-! ### Any turn -/

/-- What a turn that is no power-on and does not stop can be: a read, which changes nothing, or a turn of an agent. -/
theorem takeTurn_cases (x : Turn) (hx : x ≠ .powerOn) (s t : State) (h : takeTurn x s = .next t) :
    (t = s ∧ ∃ p, x = .readPort p) ∨ (x = .host ∧ hostTurn s = .next t) ∨ (x = .timerClk ∧ t = timerClk s)
      ∨ (x = .tickService ∧ t = tickService s) := by
  cases x with
  | powerOn => exact absurd rfl hx
  | readPort p => exact .inl ⟨(Host.Outcome.next.inj h).symm, p, rfl⟩
  | host => exact .inr (.inl ⟨rfl, h⟩)
  | timerClk => exact .inr (.inr (.inl ⟨rfl, (Host.Outcome.next.inj h).symm⟩))
  | tickService => exact .inr (.inr (.inr ⟨rfl, (Host.Outcome.next.inj h).symm⟩))

/-! ### The schedule -/

theorem nextTurn_cons (s : State) (t : Turn) (ts : List Turn) (h : s.schedule = t :: ts) : s.nextTurn = t := by
  simp [State.nextTurn, State.comingTurns, h]

theorem advance_cons (s : State) (t : Turn) (ts : List Turn) (h : s.schedule = t :: ts) :
    s.advance = { s with schedule := ts } := by
  simp [State.advance, State.comingTurns, h]

theorem comingTurns_nil (s : State) (h : s.schedule = []) : s.comingTurns = freeRound s.rounds := by
  rw [State.comingTurns, h]

theorem advanceBy_add (a b : Nat) (s : State) :
    State.advanceBy (a + b) s = State.advanceBy b (State.advanceBy a s) := by
  induction a generalizing s with
  | zero => rw [Nat.zero_add]; rfl
  | succ a ih => rw [Nat.add_right_comm]; exact ih s.advance

theorem turnAt_add (a b : Nat) (s : State) : s.turnAt (a + b) = (State.advanceBy a s).turnAt b := by
  simp only [State.turnAt, advanceBy_add]

theorem firstTurns_succ (σ : Nat → Turn) (k : Nat) : firstTurns σ (k + 1) = firstTurns σ k ++ [σ k] := by
  simp [firstTurns, List.range_succ]

/-! ### Runs -/

theorem issuedIn_cons (i : Instr) (x : Turn) (ts : List Turn) (s t : State) (h : takeTurn x s = .next t) :
    issuedIn i (x :: ts) s = ((decide (x = .host) && s.aboutToIssue i) || issuedIn i ts t) := by
  simp only [issuedIn, h]

theorem servicesTaken_cons (x : Turn) (ts : List Turn) (s t : State) (h : takeTurn x s = .next t) :
    servicesTaken (x :: ts) s
      = (if x = .tickService ∧ s.serviceEnabled = true then 1 else 0) + servicesTaken ts t := by
  simp only [servicesTaken, h]

theorem runTurns_append (a b : List Turn) (s t : State) (h : runTurns a s = .next t) :
    runTurns (a ++ b) s = runTurns b t := by
  induction a generalizing s with
  | nil =>
    simp only [runTurns, Host.Outcome.next.injEq] at h
    subst h
    rfl
  | cons x a ih =>
    simp only [runTurns, List.cons_append] at h ⊢
    cases hx : takeTurn x s with
    | next s' => rw [hx] at h; exact ih s' h
    | fault r => rw [hx] at h; cases h
    | refused r => rw [hx] at h; cases h

theorem hostTurns_add (a b : Nat) : hostTurns (a + b) = hostTurns a ++ hostTurns b :=
  List.replicate_append_replicate.symm

/-- A run of HOST's turns, cut in two. -/
theorem run_hostTurns_add (a b : Nat) (s t : State) (h : runTurns (hostTurns a) s = .next t) :
    runTurns (hostTurns (a + b)) s = runTurns (hostTurns b) t := by
  rw [hostTurns_add]
  exact runTurns_append _ _ _ _ h

/-- One turn of HOST in the middle of a command. -/
theorem run_hostTurns_continue (k : Nat) (s : State) (h : s.fault = 0) (hq : s.seq ≠ .idle) :
    runTurns (hostTurns (k + 1)) s = runTurns (hostTurns k) (continueCommand s) := by
  show runTurns (.host :: hostTurns k) s = _
  simp only [runTurns, takeTurn, hostTurn_continue s h hq]

/-- With no selector active every line is 1. -/
theorem lines_high_of_not_busy (s : State) (h : s.busy = false) : ∀ v ∈ s.cs, v = true := by
  intro v hv
  cases v with
  | true => rfl
  | false => simp [State.busy] at h; exact absurd hv h

end Sys2Proof.Machine
end

