-- ==== Sys2Proof/Tests/Slice0.lean ====
section
/-! SUPPORT. The model's own tests. Expected values come from the spec: the worked examples and vectors of
spec/95_test_vectors.md, the encodings of spec/30_encoding.md, and the ranges of spec/00_scope.md R7. The last part shows,
for each statement of Certificates/Slice0/Obligations.lean that has hypotheses, a state that meets them. -/

namespace Sys2Proof.Tests

open Sys2Proof Sys2Proof.Machine

/-! ### Helpers -/

/-- R7's defaults, with a BLANK_BYTE of the tests' own. -/
def params : Params := { Params.hardware with blankByte := 0x78 }

/-- The state after reset with the draws fixed: DOUT 0, TICK 0. -/
def base : State := { State.powerUp params 0 with result := 0, tick := 0, dout := false }

/-- The next state of an outcome. -/
def nextOf (o : Host.Outcome State Fault Refusal) : Option State :=
  match o with
  | .next t => some t
  | .fault _ => none
  | .refused _ => none

/-- FAULT, FAULT_CMD and the number of events after a command from `s`. -/
def faultOf (i : Instr) (s : State) : Option (BitVec 8 × Word24 × Nat) :=
  (nextOf (exec i s)).map fun t => (t.fault, t.faultCmd, t.trace.length)

/-- `base` with selector 0 left active by CS_ASSERT. -/
def open0 : State := { base with cs := [false, true] }

/-- A program of one command word, in main context, with HOST's turn next. -/
def issuing (w : Word24) : State :=
  { base with schedule := [.host], program := [{ context := .main, word := w }] }

/-- The timer running with modulus 3 and interrupts enabled. -/
def ticking : State := { base with ten := true, top := 3, gie := true }

/-! ### Parameters, commands and lines that are not well formed (R7, R71, R72, R76) -/

theorem test_params_wf : params.wf = true := by decide
theorem test_params_nsel_1 : ({ params with nsel := 1 } : Params).wf = false := by decide
theorem test_params_nsel_17 : ({ params with nsel := 17 } : Params).wf = false := by decide
theorem test_params_resultW_15 : ({ params with resultW := 15 } : Params).wf = false := by decide
theorem test_params_resultW_33 : ({ params with resultW := 33 } : Params).wf = false := by decide
theorem test_params_tickW_15 : ({ params with tickW := 15 } : Params).wf = false := by decide
theorem test_params_tickW_33 : ({ params with tickW := 33 } : Params).wf = false := by decide
theorem test_params_cache_10000 : ({ params with renderCacheReset := some 10000 } : Params).wf = false := by decide
theorem test_hostParams_refresh_0 : (HostParams.mk 0 3 1000).wf = false := by decide
theorem test_hostParams_top_0 : (HostParams.mk 50 3 0).wf = false := by decide
theorem test_busWrite_selector_2 : (Instr.busWrite 2 0x55).wellFormed params = false := by decide
theorem test_busRead_selector_2 : (Instr.busRead 2 14).wellFormed params = false := by decide
theorem test_busRead_17_bits : (Instr.busRead 0 17).wellFormed params = false := by decide
theorem test_csAssert_selector_15 : (Instr.csAssert 15).wellFormed params = false := by decide
theorem test_csDeassert_selector_2 : (Instr.csDeassert 2).wellFormed params = false := by decide
theorem test_encode_10000 : (Instr.encode 10000).wellFormed params = false := by decide
theorem test_render_10000 : (Instr.render 10000).wellFormed params = false := by decide
theorem test_line_selector_16 : (AsmLine.mk .csAssert 16 0).wellFormed = false := by decide
theorem test_line_byte_256 : (AsmLine.mk .busWrite 1 256).wellFormed = false := by decide
theorem test_line_no_selector : (AsmLine.mk .render 1 7).wellFormed = false := by decide

/-! ### Decoding, from the words of R73's encoding column (R73, R74, R76) -/

theorem test_decode_busWrite : decode 0b000100010000000001110110 = .instr (.busWrite 1 0x76) := by decide
theorem test_decode_busRead : decode 0b001000000000000000001110 = .instr (.busRead 0 14) := by decide
theorem test_decode_csAssert : decode 0b001100010000000000000000 = .instr (.csAssert 1) := by decide
theorem test_decode_csDeassert : decode 0b010011110000000000000000 = .instr (.csDeassert 15) := by decide
theorem test_decode_dataDrive : decode 0b010100000000000000000001 = .instr (.dataDrive true) := by decide
theorem test_decode_clkSet : decode 0b011000000000000000000000 = .instr (.clkSet false) := by decide
theorem test_decode_dataSample : decode 0b011100000000000000000000 = .instr .dataSample := by decide
theorem test_decode_tickRead : decode 0b100000000000000000000000 = .instr .tickRead := by decide
theorem test_decode_tickClear : decode 0b100100000000000000000000 = .instr .tickClear := by decide
theorem test_decode_wait : decode 0b101000000000000000000000 = .instr .wait := by decide
theorem test_decode_ieSet : decode 0b101100000000000000000001 = .instr (.ieSet true) := by decide
theorem test_decode_timerCfg : decode 0b110000000000001111101000 = .instr (.timerCfg 1000) := by decide
theorem test_decode_encode : decode 0b110100000000000001101001 = .instr (.encode 105) := by decide
theorem test_decode_render : decode 0b111000000000010011010010 = .instr (.render 1234) := by decide
theorem test_decode_dispClear : decode 0b111100000000000000000000 = .instr .dispClear := by decide
theorem test_decode_op_0 : decode 0x000000 = .illegal .opZero := by decide
theorem test_decode_busWrite_bit_8 : decode 0x110100 = .illegal .reservedBits := by decide
theorem test_decode_dataDrive_bit_1 : decode 0x500002 = .illegal .reservedBits := by decide
theorem test_decode_dataDrive_selector : decode 0x510001 = .illegal .reservedBits := by decide
theorem test_decode_ieSet_bit_1 : decode 0xB00002 = .illegal .reservedBits := by decide
theorem test_decode_timerCfg_selector : decode 0xC10005 = .illegal .reservedBits := by decide
theorem test_decode_dispClear_bit_0 : decode 0xF00001 = .illegal .reservedBits := by decide
theorem test_tableWord_render : decodeTableWord 24 0xE004D2 = some (.render 1234) := by decide
theorem test_tableWord_illegal : decodeTableWord 24 0x000000 = none := by decide

/-! ### Assembler lines (R76's examples) and pseudo-commands (R77) -/

theorem test_asm_busWrite : assemble "BUS_WRITE DISPLAY, 0x76" = some 0x110076 := by decide
theorem test_asm_busRead : assemble "BUS_READ THERMO, 14" = some 0x20000E := by decide
theorem test_asm_render : assemble "RENDER 1234" = some 0xE004D2 := by decide
theorem test_asm_wait : assemble "WAIT" = some 0xA00000 := by decide
theorem test_asm_csAssert : assemble "CS_ASSERT DISPLAY" = some 0x310000 := by decide
theorem test_asm_no_selector : assemble "BUS_READ 14" = some 0x20000E := by decide
theorem test_asm_hex_case : assemble "BUS_WRITE 1, 0x7a" = some 0x11007A := by decide
theorem test_asm_blank_in_number : assemble "RENDER 1 2" = none := by decide
/-- Log 19. -/
theorem test_asm_zero_selector : assemble "RENDER 0, 1234" = none := by decide
theorem test_asm_too_large : assemble "CLK_SET 2" = none := by decide
theorem test_pseudo_readTc : (Pseudo.expand .readTc).map encode = [0x20000E] := by decide

/-! ### One step of each command (95_test_vectors.md) -/

/-- V-L1-5, first event. -/
theorem test_busWrite_first_event : (nextOf (exec (.busWrite 1 0xB0) base)).map State.trace = some [.cs 1 false] := by decide
/-- V-L2-BUS-4. -/
theorem test_busWrite_badSelector : faultOf (.busWrite 2 0x55) base = some (2, 0x120055, 0) := by decide
/-- V-L1-5: the first bit of 0xB0 is 1. -/
theorem test_write_first_bit : (continueCommand { base with seq := .busWrite ⟨1, 0xB0, 7, .data⟩ }).dout = true := by decide
/-- R110: the last micro-step releases the selector and ends the command. -/
theorem test_write_last_step : (fun t : State => (t.cs, t.seq))
    (continueCommand { base with cs := [true, false], seq := .busWrite ⟨1, 0xB0, 0, .deassert⟩ })
      = ([true, true], .idle) := by decide
/-- V-L2-BUS-10. -/
theorem test_busRead_invalidArgument : faultOf (.busRead 0 17) base = some (4, 0x200011, 0) := by decide
/-- V-L2-BUS-13. -/
theorem test_busRead_badSelector_first : faultOf (.busRead 3 17) base = some (2, 0x230011, 0) := by decide
/-- R111: the accumulator is shifted left and the sample comes in as bit 0. -/
theorem test_read_sample : (continueCommand { base with dinInput := [true], seq := .busRead ⟨0, 14, 0, 0x320, .sample⟩ }).seq
    = .busRead ⟨0, 14, 0, 0x641, .clkLow⟩ := by decide
/-- R111's example: RESULT is written in the last micro-step. -/
theorem test_read_last_step : (fun t : State => (t.result, t.resultValid, t.cs))
    (continueCommand { base with cs := [false, true], seq := .busRead ⟨0, 14, 0, 0x640, .deassert⟩ })
      = (0x640, true, [true, true]) := by decide
/-- V-L2-BUS-16. -/
theorem test_csAssert_overlap : faultOf (.csAssert 0) open0 = some (3, 0x300000, 0) := by decide
/-- R112's example. -/
theorem test_csAssert_thermo : (nextOf (exec (.csAssert 0) base)).map (fun t => (t.cs, t.trace))
    = some ([false, true], [.cs 0 false]) := by decide
/-- V-L2-BUS-18. -/
theorem test_csDeassert_inactive : (nextOf (exec (.csDeassert 1) base)).map (fun t => (t.cs, t.trace, t.fault))
    = some ([true, true], [.cs 1 true], 0) := by decide
/-- V-L2-BUS-20. -/
theorem test_csDeassert_badSelector : faultOf (.csDeassert 2) base = some (2, 0x420000, 0) := by decide
/-- V-L2-BUS-21. -/
theorem test_dataDrive_1 : (nextOf (exec (.dataDrive true) base)).map (fun t => (t.dout, t.trace))
    = some (true, [.dout true]) := by decide
/-- V-L2-BUS-24: a second CLK_SET 1 is recorded. -/
theorem test_clkSet_again : (nextOf (exec (.clkSet true) { base with sck := true, trace := [.sck true] })).map State.trace
    = some [.sck true, .sck true] := by decide
/-- V-L2-BUS-25. -/
theorem test_dataSample_no_selector : (nextOf (exec .dataSample { base with dinInput := [true] })).map
    (fun t => (t.result, t.trace)) = some (1, [.sample none true]) := by decide
/-- R116, R28: the sample is recorded under the active selector. -/
theorem test_dataSample_selector : (nextOf (exec .dataSample { open0 with dinInput := [false] })).map
    (fun t => (t.result, t.trace)) = some (0, [.sample (some 0) false]) := by decide
/-- V-L2-TICK-8. -/
theorem test_tickRead_width : (nextOf (exec .tickRead { base with
    params := { params with tickW := 16 }, tick := 0x1234 })).map State.result = some 0x1234 := by decide
/-- R141's example. -/
theorem test_tickClear : (nextOf (exec .tickClear { base with tick := 0x1234, pend := true })).map
    (fun t => (t.tick, t.pend)) = some (0, true) := by decide
/-- V-L2-TICK-11, first micro-step. -/
theorem test_wait_enters : (nextOf (exec .wait base)).map (fun t => (t.sleep, t.seq)) = some (true, .wait) := by decide
/-- R142: HOST is held while SLEEP = 1. -/
theorem test_wait_holds : (nextOf (hostTurn { base with sleep := true, seq := .wait })).map State.seq = some .wait := by decide
/-- R143's example. -/
theorem test_ieSet_1 : (nextOf (exec (.ieSet true) base)).map State.gie = some true := by decide
/-- V-L2-TICK-14. -/
theorem test_timerCfg_0 : (nextOf (exec (.timerCfg 0) { ticking with tcnt := 2, pend := true })).map
    (fun t => (t.ten, t.top, t.tcnt, t.pend)) = some (false, 0, 0, true) := by decide
/-- V-L2-TICK-15. -/
theorem test_timerCfg_restarts : (nextOf (exec (.timerCfg 1000) { ticking with top := 1000, tcnt := 999 })).map
    (fun t => (t.ten, t.tcnt)) = some (true, 0) := by decide
/-- V-L2-ENC-1: 105. -/
theorem test_encode_105 : (nextOf (exec (.encode 105) base)).map State.result = some 0x00020105 := by decide
/-- V-L2-ENC-1: 65535 under `legacy`. -/
theorem test_encode_legacy : (nextOf (exec (.encode 65535) { base with
    params := { params with overPolicy := .legacy } })).map State.result = some 0x00005535 := by decide
/-- V-L2-ENC-3a. -/
theorem test_render_outOfRange : faultOf (.render 10000) base = some (5, 0xE02710, 0) := by decide
/-- V-L2-ENC-3c. -/
theorem test_render_suppressed : faultOf (.render 42) { open0 with last := some 42 } = some (0, 0, 0) := by decide
/-- V-L2-ENC-2: 1005, both styles. -/
theorem test_renderBytes_1005 : renderBytes params 1005 = [0x76, 0x77, 0x04, 0x01, 0x00, 0x00, 0x05]
    ∧ renderBytes { params with digitStyle := .ascii } 1005 = [0x76, 0x77, 0x04, 0x31, 0x30, 0x30, 0x35] := by decide
/-- V-L1-2: 0007 shows two blanks. -/
theorem test_renderBytes_7 : renderBytes params 7 = [0x76, 0x77, 0x04, 0x78, 0x78, 0x00, 0x07] := by decide
/-- V-L2-ENC-3i, first event. -/
theorem test_dispClear_first_event : (nextOf (exec .dispClear base)).map State.trace = some [.cs 1 false] := by decide
/-- R182: LAST is none after the last micro-step. -/
theorem test_dispClear_last_step : (continueCommand { base with
    cs := [true, false], last := some 42, seq := .dispClear clearBytes 0 ⟨1, 0x76, 0, .deassert⟩ }).last = none := by decide
/-- R80: the display's bytes. -/
theorem test_display_bytes : [dispReset, dispDecimal, dispBrightness] ++ (List.finRange 4).map dispDigit
    = [0x76, 0x77, 0x7A, 0x7B, 0x7C, 0x7D, 0x7E] := by decide

/-! ### The other agents -/

/-- V-L2-TICK-1, third TIMER_CLK. -/
theorem test_timerClk_roll : (fun t : State => (t.tcnt, t.pend)) (timerClk { ticking with tcnt := 2 }) = (0, true) := by decide
/-- V-L2-TICK-3. -/
theorem test_timerClk_stopped : timerClk base = base := by decide
/-- V-L2-TICK-6. -/
theorem test_tickService_wraps : (fun t : State => (t.tick, t.pend))
    (tickService { ticking with tick := 0xFFFFFFFF, pend := true }) = (0, false) := by decide
/-- V-L2-TICK-7. -/
theorem test_tickService_wraps_16 : (tickService { ticking with
    params := { params with tickW := 16 }, tick := 0xFFFF, pend := true }).tick = 0 := by decide
/-- V-L2-TICK-19. -/
theorem test_tickService_after_fault : (tickService { ticking with fault := 3, pend := true }).tick = 1 := by decide
/-- R201: a word that does not decode faults at its issue (P5 c). -/
theorem test_issue_illegal : (nextOf (step (issuing 0x000000))).map (fun t => (t.fault, t.faultCmd, t.trace))
    = some (1, 0, []) := by decide
/-- The word placed by withFetchWord runs as the first command after reset. -/
theorem test_fetchWord_runs : (nextOf (step (State.reset.withFetchWord 24 0x600001))).map (fun t => (t.sck, t.trace))
    = some (true, [.sck true]) := by decide
/-- I5 of 93_implementation_defined.md and R34: the read before the first result is refused, and HOST then goes on. -/
theorem test_read_before_result : readPort .result base = .fault
    ∧ (nextOf (runTurns [.readPort .result, .host] (issuing 0x600001))).map (fun t => (t.fault, t.sck))
        = some (0, true) := by decide
/-- R103: two bits latched at two rising edges. -/
theorem test_device_latches : deviceLatches false false none
    [.cs 1 false, .dout true, .sck true, .sck false, .dout false, .sck true, .sck false, .cs 1 true]
      = [(1, true), (1, false)] := by decide

/-! ### Host software -/

/-- V-L1-6: PERIOD 20, next_due 20, stalled to 80. -/
theorem test_schedule_drift : (RefreshSchedule.mk 20).check params ⟨50, 3, 1000⟩ 80 = ⟨40⟩ := by decide
/-- V-L1-7: no read at 19, one at 20. -/
theorem test_schedule_due : ((RefreshSchedule.start params ⟨50, 3, 1000⟩).commands 19,
    (RefreshSchedule.start params ⟨50, 3, 1000⟩).commands 20) = ([.wait], [.busRead 0 14, .wait]) := by decide
/-- P1: the words of the bring-up sequence. -/
theorem test_bringUp_words : (bringUp ⟨50, 3, 1000⟩).map encode
    = [0xC003E8, 0xB00001, 0xA00000, 0xA00000, 0xA00000, 0xF00000, 0x900000] := by decide
/-- R231: the compare across a wrap, TICK_W = 32. -/
theorem test_due_across_wrap : (RefreshSchedule.mk 0xFFFFFFF0).dueAcrossWrap params 4 = true
    ∧ (RefreshSchedule.mk 0xFFFFFFF0).due 4 = false := by decide

/-! ### A state that meets the hypotheses of each statement

Each theorem is named after its obligation. Where clauses of a statement have hypotheses of their own, each has a case
here, at the boundary values of its range. -/

theorem base_ready : base.ready := ⟨rfl, rfl, rfl⟩

/-- The widest parameters R7 allows. -/
def wide : Params := { params with nsel := 16, resultW := 32, tickW := 32, overPolicy := .legacy, digitStyle := .ascii }

/-- The reset state of the widest parameters. -/
def wideBase : State := { base with params := wide, cs := List.replicate 16 true }

theorem witness_EncodeOfDecode : decode 0x1100B0 = .instr (.busWrite 1 0xB0) := by decide

theorem witness_WordSelectsUniqueRow :
    Opcode.selectedBy 0xF00000 .dispClear = true ∧ decode 0xF00000 = .instr .dispClear := by decide

theorem witness_IllegalWordFaults : decode 0x110100 = .illegal .reservedBits ∧ base.fault = 0 ∧ base.seq = .idle :=
  ⟨by decide, rfl, rfl⟩

theorem witness_AssemblerLineSpellsItsCommand :
    (AsmLine.mk .busRead 15 65535).wellFormed = true ∧ (AsmLine.mk .busRead 16 65535).wellFormed = false := by decide

theorem witness_StepRunsDecodedCommand : (issuing 0xA00000).nextTurn = .host ∧ (issuing 0xA00000).fault = 0
    ∧ (issuing 0xA00000).seq = .idle ∧ (issuing 0xA00000).program = [{ context := .main, word := 0xA00000 }]
    ∧ decode 0xA00000 = .instr .wait := ⟨rfl, rfl, rfl, rfl, by decide⟩

/-- HOST's turn in the middle of a WAIT. -/
def waiting : State := { base with schedule := [.host], seq := .wait, sleep := true }

theorem witness_StepContinuesCommand : waiting.nextTurn = .host ∧ waiting.fault = 0 ∧ waiting.seq ≠ .idle :=
  ⟨rfl, rfl, by decide⟩

/-- HOST's turn, then TIMER's, with the timer running. -/
def twoTurns : State := { ticking with schedule := [.host, .timerClk] }

theorem witness_RunIsItsTurns : runTurns (State.upcoming 2 twoTurns) twoTurns = .next { twoTurns with tcnt := 1 } := rfl

theorem witness_ScheduleIsFairAndOtherwiseFree : ∀ a ∈ [Turn.host, .timerClk, .tickService], isAgentTurn a = true := by
  decide

theorem witness_StepStopsOnlyAtInterruptContextCommand :
    step { base with schedule := [.readPort .result] } = .next base
    ∧ step { base with schedule := [.host], program := [{ context := .interrupt, word := 0xA00000 }] }
        = .refused .interruptContextCommand := ⟨rfl, rfl⟩

theorem witness_ReadPortShowsThreeRegisters :
    State.resultValid { base with resultValid := true } = true ∧ base.resultValid = false
    ∧ State.nextTurn { base with schedule := [.readPort .result] } = .readPort .result := ⟨rfl, rfl, rfl⟩

/-- A step that writes RESULT, one that writes FAULT, one each for GIE, PEND, SLEEP, TEN and TOP, TCNT, TICK and LAST. -/
theorem witness_RegistersHaveOnlyTheirWriters :
    ((nextOf (step { issuing 0x700000 with dinInput := [true] })).map fun t => (t.result, t.resultValid)) = some (1, true)
    ∧ ((nextOf (step { base with schedule := [.host], seq := .busRead ⟨0, 14, 0, 0x640, .deassert⟩ })).map
        State.result) = some 0x640
    ∧ ((nextOf (step (issuing 0x000000))).map State.fault) = some 1
    ∧ ((nextOf (step (issuing 0xB00001))).map State.gie) = some true
    ∧ ((nextOf (step { ticking with schedule := [.timerClk], tcnt := 2 })).map State.pend) = some true
    ∧ ((nextOf (step { ticking with schedule := [.tickService], pend := true })).map State.pend) = some false
    ∧ ((nextOf (step (issuing 0xA00000))).map State.sleep) = some true
    ∧ ((nextOf (step (issuing 0xC003E8))).map fun t => (t.ten, t.top)) = some (true, 1000)
    ∧ ((nextOf (step { ticking with schedule := [.timerClk] })).map State.tcnt) = some 1
    ∧ ((nextOf (step { ticking with schedule := [.tickService], pend := true })).map State.tick) = some 1
    ∧ ((nextOf (step { base with
          schedule := [.host], seq := .render 7 (renderBytes params 7) 6 ⟨1, 0x07, 0, .deassert⟩ })).map State.last)
        = some (some 7) := by decide

theorem witness_ResetValues : params.wf = true ∧ wide.wf = true
    ∧ ({ params with tickW := 16, renderCacheReset := some 9999 } : Params).wf = true := by decide

theorem witness_InvariantAtPowerUp : wide.wf = true := by decide

theorem base_inv : base.Inv where
  params := by decide
  lines := by decide
  oneSelector := by decide
  tick := by decide
  timer := by decide
  counter := by decide
  faults := .inl ⟨rfl, rfl⟩
  stopped := fun h => absurd rfl h
  sleeping := nofun
  cache := nofun
  sequencer := trivial

theorem witness_StepKeepsInvariant : State.Inv { base with schedule := [.host] }
    ∧ step { base with schedule := [.host] } = .next base :=
  ⟨⟨base_inv.params, base_inv.lines, base_inv.oneSelector, base_inv.tick, base_inv.timer, base_inv.counter,
    base_inv.faults, base_inv.stopped, base_inv.sleeping, base_inv.cache, trivial⟩, rfl⟩

/-- HOST's turn in the middle of a write that meets the invariant: the bit is clocked out with SCK at 1. -/
def writing : State := { base with
  schedule := [.host], cs := [true, false], sck := true, seq := .busWrite ⟨1, 0xB0, 3, .clkLow⟩ }

theorem witness_StepKeepsInvariant_write : writing.Inv
    ∧ (nextOf (step writing)).map State.seq = some (.busWrite ⟨1, 0xB0, 2, .data⟩) :=
  ⟨{ params := by decide, lines := by decide, oneSelector := by decide, tick := by decide, timer := by decide
     counter := by decide, faults := .inl ⟨rfl, rfl⟩, stopped := fun h => absurd rfl h, sleeping := nofun
     cache := nofun
     sequencer := ⟨by decide, by decide, nofun, fun _ => rfl, fun _ => rfl⟩ }, by decide⟩

/-- A state with a fault raised. -/
def faulted : State := { base with fault := 3, faultCmd := 0x110076 }

theorem witness_IssueAndFaultAction : faulted.fault ≠ 0
    ∧ ((issuing 0x000000).fault = 0 ∧ (issuing 0x000000).seq = .idle ∧ decode 0x000000 = .illegal .opZero)
    ∧ ((issuing 0x600001).fault = 0 ∧ decode 0x600001 = .instr (.clkSet true))
    ∧ (base.fault = 0 ∧ base.seq = .idle ∧ faultOf (.busRead 0 17) base = some (4, 0x200011, 0)) := by decide

/-- Each fault of a decoded command, at the boundary of its range, the priority of two, and none. -/
theorem witness_FirstApplicableFaultIsRaised :
    firstFault (.busWrite 2 0) base = some .badSelector ∧ firstFault (.busRead 0 17) base = some .invalidArgument
    ∧ firstFault (.render 10000) base = some .outOfRange ∧ firstFault .dispClear open0 = some .busOverlap
    ∧ firstFault (.busRead 2 17) open0 = some .badSelector ∧ firstFault (.busRead 1 17) open0 = some .invalidArgument
    ∧ firstFault (.busRead 1 16) base = none ∧ firstFault (.render 9999) base = none
    ∧ firstFault (.busWrite 15 0) wideBase = none := by decide

theorem witness_FaultStandsUntilPowerOn : State.nextTurn { faulted with schedule := [.host] } ≠ .powerOn
    ∧ step { faulted with schedule := [.host] } = .next faulted ∧ faulted.fault ≠ 0 :=
  ⟨by decide, rfl, by decide⟩

theorem witness_FaultedHostIsStuck : faulted.fault ≠ 0
    ∧ ∀ t ∈ [Turn.host, .timerClk, .readPort .fault, .tickService], t ≠ .powerOn := by decide

theorem witness_BusWriteSendsByte : base.ready ∧ (1 : BitVec 4).toNat < base.params.nsel
    ∧ wideBase.ready ∧ (15 : BitVec 4).toNat < wideBase.params.nsel :=
  ⟨base_ready, by decide, ⟨rfl, rfl, rfl⟩, by decide⟩

theorem witness_WriteTraceRoundTrip : base.ready ∧ base.cs.length = base.params.nsel
    ∧ (1 : BitVec 4).toNat < base.params.nsel := ⟨base_ready, by decide, by decide⟩

theorem witness_DeviceLatchesWrittenByte : base.ready ∧ base.sck = false
    ∧ State.ready { base with sck := true } ∧ (1 : BitVec 4).toNat < base.params.nsel :=
  ⟨base_ready, rfl, ⟨rfl, rfl, rfl⟩, by decide⟩

theorem witness_BusReadReturnsSamples : base.ready ∧ base.params.wf = true ∧ (0 : BitVec 4).toNat < base.params.nsel
    ∧ (0 : Word16).toNat ≤ base.params.resultW ∧ (16 : Word16).toNat ≤ base.params.resultW
    ∧ (32 : Word16).toNat ≤ wideBase.params.resultW := ⟨base_ready, by decide, by decide, by decide, by decide, by decide⟩

theorem witness_CsAssertOpensTransaction :
    ((1 : BitVec 4).toNat < base.params.nsel ∧ base.busy = false) ∧ (1 : BitVec 4).toNat < base.cs.length
    ∧ (open0.cs[(0 : BitVec 4).toNat]? = some false ∧ 1 ≠ (0 : BitVec 4).toNat)
    ∧ base.params.nsel ≤ (2 : BitVec 4).toNat ∧ ((0 : BitVec 4).toNat < open0.params.nsel ∧ open0.busy = true) := by decide

theorem witness_CsDeassertReleasesItsLine : (1 : BitVec 4).toNat < base.params.nsel
    ∧ base.cs[(1 : BitVec 4).toNat]? = some true ∧ 0 ≠ (1 : BitVec 4).toNat
    ∧ base.params.nsel ≤ (2 : BitVec 4).toNat := by decide

theorem witness_WriteEqualsItsPrimitives : base.ready ∧ (1 : BitVec 4).toNat < base.params.nsel :=
  ⟨base_ready, by decide⟩

theorem witness_ReadFromPrimitives : base.ready ∧ base.params.wf = true ∧ base.cs.length = base.params.nsel
    ∧ (0 : BitVec 4).toNat < base.params.nsel ∧ (0 : Word16).toNat ≤ base.params.resultW
    ∧ (16 : Word16).toNat ≤ base.params.resultW := ⟨base_ready, by decide, by decide, by decide, by decide, by decide⟩

/-- A program of a write and a TICK_CLEAR. -/
def busProgram : State := { ticking with program := mainProgram [.busWrite 1 0xB0, .tickClear] }

theorem witness_TicksDoNotTouchTheBus : (∀ t ∈ [Turn.host, .timerClk, .readPort .result, .tickService, .host], t ≠ .powerOn)
    ∧ busProgram.seq ≠ .wait ∧ busProgram.programInMain ∧ busProgram.programAvoids .tickRead
    ∧ busProgram.programAvoids .wait := by
  unfold State.programInMain State.programAvoids
  decide

theorem witness_TickReadCopiesTick : ticking.params.wf = true
    ∧ State.serviceEnabled { ticking with pend := true } = true := by decide

theorem witness_TickClearZeroesTick : State.pend { ticking with pend := true } = true ∧ ticking.gie = true
    ∧ ticking.params.wf = true := by decide

theorem witness_WaitParksUntilService : ticking.fault = 0
    ∧ State.pend { ticking with pend := true } = true ∧ ticking.gie = true := by decide

/-- HOST in WAIT with the timer running. -/
def asleep : State := { ticking with seq := .wait, sleep := true }

theorem witness_WaitEndsAtNextRollOver : asleep.seq = .wait ∧ asleep.sleep = true ∧ asleep.fault = 0
    ∧ asleep.gie = true ∧ asleep.ten = true ∧ asleep.tcnt < asleep.top := by decide

/-- A run that ends a WAIT, with turns of HOST and of the read port before the service. -/
theorem witness_WaitEndsUnderWeakFairness_service : asleep.seq = .wait ∧ asleep.sleep = true
    ∧ (∀ x ∈ [Turn.timerClk, .host, .timerClk, .readPort .result, .timerClk, .tickService, .host], x ≠ .powerOn)
    ∧ (nextOf (runTurns [.timerClk, .host, .timerClk, .readPort .result, .timerClk, .tickService, .host] asleep)).map
        State.seq = some .idle := by decide

/-- Turns in rotation are weakly fair, from any state. -/
theorem rotation_weaklyFair (s : State) : WeaklyFair guaranteedTurn s := by
  intro a ha n _
  cases a with
  | host => exact ⟨3 * n, by omega, by simp only [guaranteedTurn, show 3 * n % 3 = 0 by omega]⟩
  | timerClk => exact ⟨3 * n + 1, by omega, by simp only [guaranteedTurn, show (3 * n + 1) % 3 = 1 by omega]⟩
  | tickService => exact ⟨3 * n + 2, by omega, by simp only [guaranteedTurn, show (3 * n + 2) % 3 = 2 by omega]⟩
  | readPort p => cases ha
  | powerOn => cases ha

theorem guaranteedTurn_isAgentTurn (k : Nat) : isAgentTurn (guaranteedTurn k) = true := by
  unfold guaranteedTurn
  split <;> rfl

theorem guaranteedTurn_ne {t : Turn} (h : isAgentTurn t = false) (k : Nat) : guaranteedTurn k ≠ t := by
  rintro rfl
  simp [guaranteedTurn_isAgentTurn] at h

theorem witness_WaitEndsUnderWeakFairness : (asleep.seq = .wait ∧ asleep.fault = 0 ∧ asleep.gie = true
      ∧ asleep.ten = true ∧ asleep.tcnt < asleep.top)
    ∧ (∀ k, guaranteedTurn k ≠ .powerOn)
    ∧ WeaklyFair guaranteedTurn asleep :=
  ⟨by decide, guaranteedTurn_ne rfl, rotation_weaklyFair asleep⟩

theorem witness_WaitWithoutLiveTickHangs : asleep.seq = .wait ∧ asleep.sleep = true
    ∧ State.gie { asleep with gie := false } = false ∧ (waiting.ten = false ∧ waiting.pend = false)
    ∧ ∀ t ∈ [Turn.host, .timerClk, .readPort .result, .tickService], t ≠ .powerOn := by decide

theorem witness_IeSetWritesGie : ticking.ten = true ∧ State.rollsOver { ticking with tcnt := 2 } = true := by decide

theorem witness_TimerCfgRestartsTimer : 999 < (1000 : Word16).toNat ∧ (1 : Word16) ≠ 0 := by decide

theorem witness_TimerClkCountsModuloTop : ticking.ten = true
    ∧ State.tcnt { ticking with tcnt := 2 } = ticking.top - 1 ∧ ticking.tcnt ≠ ticking.top - 1
    ∧ base.ten = false ∧ ticking.tcnt < ticking.top := by decide

/-- The last TIMER_CLK before a roll-over, a roll-over, and a TIMER_CFG that lowers TOP below TCNT. -/
theorem witness_TimerClkCountsModuloTop_step :
    (nextOf (step { ticking with schedule := [.timerClk], tcnt := 1 })).map (fun t => (t.ten, t.tcnt, t.top))
      = some (true, 2, 3)
    ∧ (nextOf (step { ticking with schedule := [.timerClk], tcnt := 2 })).map (fun t => (t.ten, t.tcnt, t.top))
      = some (true, 0, 3)
    ∧ (nextOf (step { issuing 0xC00001 with ten := true, top := 3, tcnt := 2 })).map (fun t => (t.ten, t.tcnt, t.top))
      = some (true, 0, 1) := by decide

theorem witness_RollOverWhilePendingIsLost : ticking.ten = true ∧ State.pend { ticking with pend := true } = true
    ∧ State.rollsOver { ticking with tcnt := 2 } = true ∧ ticking.gie = true := by decide

/-- A critical section from IE_SET 0 to IE_SET 1, with a write and a TICK_READ in it and a TICK_CLEAR after it. -/
def critical : State := { ticking with
  gie := false
  program := mainProgram [.dataDrive true, .tickRead, .ieSet true, .tickClear] }

/-- Seven turns of TIMER, two roll-overs, with turns of HOST and of SERVICE between them. -/
def criticalTurns : List Turn :=
  [.timerClk, .tickService, .timerClk, .host, .timerClk, .tickService, .timerClk, .timerClk, .host, .timerClk,
    .tickService, .timerClk]

theorem witness_LongCriticalSectionLosesTicks : critical.params.wf = true ∧ critical.gie = false ∧ critical.ten = true
    ∧ critical.tcnt < critical.top ∧ (∀ x ∈ criticalTurns, x ≠ .powerOn)
    ∧ issuedIn (.ieSet true) criticalTurns critical = false ∧ issuedIn .tickClear criticalTurns critical = false
    ∧ (nextOf (runTurns criticalTurns critical)).map (fun t => (t.tcnt, t.pend, t.tick)) = some (1, true, 0) := by decide

/-- A TIMER_CFG is issued in no run of `critical`. -/
theorem witness_LongCriticalSectionLosesTicks_timerCfg (top : Word16) :
    issuedIn (.timerCfg top) criticalTurns critical = false := rfl

theorem witness_TickServiceIsAtomic : ticking.params.wf = true ∧ State.pend { ticking with pend := true } = true
    ∧ ticking.gie = true ∧ ticking.pend = false ∧ base.gie = false := by decide

/-- The program issues its TICK_CLEAR after the run only. -/
theorem witness_TickCountsServices : params.wf = true
    ∧ (∀ x ∈ [Turn.host, .timerClk, .tickService, .readPort .fault], x ≠ .powerOn)
    ∧ issuedIn .tickClear [.host, .timerClk, .tickService, .readPort .fault] { critical with gie := true, pend := true }
        = false
    ∧ (nextOf (runTurns [.host, .timerClk, .tickService, .readPort .fault]
        { critical with gie := true, pend := true })).map State.tick = some 1 := by decide

/-- A step that keeps TICK, one that adds one, one that wraps, and a TICK_CLEAR; TICK at the top of both widths. -/
theorem witness_TickWrapsAtItsWidth : params.wf = true
    ∧ (nextOf (step { ticking with schedule := [.timerClk] })).map State.tick = some 0
    ∧ (nextOf (step { ticking with schedule := [.tickService], pend := true, tick := 7 })).map State.tick = some 8
    ∧ (nextOf (step { ticking with schedule := [.tickService], pend := true, tick := 0xFFFFFFFF })).map State.tick
        = some 0
    ∧ (nextOf (step { issuing 0x900000 with tick := 7 })).map State.tick = some 0
    ∧ (State.tickValue { ticking with tick := 0xFFFFFFFF }).toNat = 2 ^ ticking.params.tickW - 1
    ∧ (State.tickValue { ticking with params := { params with tickW := 16 }, tick := 0xFFFF }).toNat = 2 ^ 16 - 1
    ∧ State.serviceEnabled { ticking with pend := true } = true := by decide

theorem witness_NoServiceWhileDisabled : critical.gie = false ∧ (∀ x ∈ criticalTurns, x ≠ .powerOn)
    ∧ issuedIn (.ieSet true) criticalTurns critical = false
    ∧ (nextOf (runTurns criticalTurns critical)).map State.program = some (mainProgram [.ieSet true, .tickClear]) := by
  decide

theorem witness_EncodeReconstructsNumber : (0 : Word16).toNat ≤ 9999 ∧ (9999 : Word16).toNat ≤ 9999 := by decide

theorem witness_NumbersAbove9999 : 9999 < (10000 : Word16).toNat ∧ params.overPolicy = .fault
    ∧ wideBase.params.overPolicy = .legacy ∧ wideBase.ready ∧ wideBase.last ≠ some 10000 :=
  ⟨by decide, rfl, rfl, ⟨rfl, rfl, rfl⟩, by decide⟩

theorem witness_RenderSendsSevenWrites : base.ready ∧ overRange base.params 9999 = false ∧ base.last ≠ some 9999
    ∧ wideBase.ready ∧ overRange wideBase.params 65535 = false :=
  ⟨base_ready, by decide, by decide, ⟨rfl, rfl, rfl⟩, by decide⟩

/-- The numbers at which the blanks and the digits change, in both styles. -/
theorem witness_RenderBytesOfNumber : (9999 : Word16).toNat ≤ 9999 ∧ (999 : Word16).toNat < 1000
    ∧ (99 : Word16).toNat < 100 ∧ params.digitStyle = .binary ∧ wide.digitStyle = .ascii
    ∧ 1000 ≤ (1000 : Word16).toNat ∧ 100 ≤ (100 : Word16).toNat := by decide

theorem witness_CachedRenderIsSuppressed : overRange open0.params 42 = false
    ∧ State.last { open0 with last := some 42 } = some 42 := by decide

theorem witness_RenderTwiceSendsOnce : base.ready ∧ overRange base.params 1234 = false ∧ base.last ≠ some 1234 :=
  ⟨base_ready, by decide, by decide⟩

theorem witness_DispClearInvalidatesCache : base.ready ∧ open0.busy = true ∧ base.last = none
    ∧ overRange base.params 0 = false := ⟨base_ready, by decide, rfl, by decide⟩

theorem witness_HostWriteBypassesCache : State.ready { base with last := some 42 } ∧ 2 ≤ base.params.nsel
    ∧ overRange base.params 42 = false := ⟨⟨rfl, rfl, rfl⟩, by decide, by decide⟩

theorem witness_DueCheckAdvancesOnePeriod : params.wf = true ∧ (RefreshSchedule.mk 20).nextDue.toNat ≤ (20 : Word32).toNat
    ∧ (19 : Word32).toNat < (RefreshSchedule.mk 20).nextDue.toNat := by decide

end Sys2Proof.Tests
end

/-! ### A command word's fields (spec 30_encoding.md R70 to R74) -/

namespace Sys2Proof

@[simp] theorem selField_commandWord (op sel : BitVec 4) (v : Word16) : selField (commandWord op sel v) = sel := by
  ext i hi
  simp [selField, getLsbD_commandWord, show 16 + i < 20 by omega, hi]

@[simp] theorem operandField_commandWord (op sel : BitVec 4) (v : Word16) :
    operandField (commandWord op sel v) = v := by
  ext i hi
  simp [operandField, getLsbD_commandWord, hi]

theorem byteField_eq (w : Word24) : byteField w = (operandField w).setWidth 8 := by
  ext i hi
  simp [byteField, operandField, show i < 16 by omega]

theorem bitField_eq (w : Word24) : bitField w = (operandField w).getLsbD 0 := by
  simp [bitField, operandField]

/-- A word is its three fields (R70). -/
theorem commandWord_fields (w : Word24) : commandWord (opField w) (selField w) (operandField w) = w := by
  ext i hi
  rw [getElem_commandWord, ← BitVec.getLsbD_eq_getElem]
  by_cases h16 : i < 16
  · simp [h16, operandField]
  · by_cases h20 : i < 20
    · simp [h16, h20, selField, show i - 16 < 4 by omega, show 16 + (i - 16) = i by omega]
    · simp [h16, h20, opField, show i - 20 < 4 by omega, show 20 + (i - 20) = i by omega]

/-- The bits of the operand that R73's mask covers are the row's. -/
theorem operandField_of_selectedBy (w : Word24) (o : Opcode) (h : Opcode.selectedBy w o = true) :
    operandField w &&& operandField o.row.mask = operandField o.row.pattern := by
  rw [selectedBy_iff] at h
  rw [← h, operandField, operandField, operandField, BitVec.extractLsb'_and]

/-- The bits of `sel` that R73's mask covers are the row's. -/
theorem selField_of_selectedBy (w : Word24) (o : Opcode) (h : Opcode.selectedBy w o = true) :
    selField w &&& selField o.row.mask = selField o.row.pattern := by
  rw [selectedBy_iff] at h
  rw [← h, selField, selField, selField, BitVec.extractLsb'_and]

/-- Where a mask leaves nothing of a word, every bit the mask covers is 0. -/
theorem getLsbD_of_and_eq_zero {n : Nat} {v m : BitVec n} (h : v &&& m = 0) (i : Nat) :
    m.getLsbD i = true → v.getLsbD i = false := by
  have hi : (v &&& m).getLsbD i = false := by rw [h]; exact BitVec.getLsbD_zero
  intro hm
  simpa [hm] using hi

/-- A field the mask covers whole is 0 where the row's is. -/
theorem eq_zero_of_and_allOnes {n : Nat} {v : BitVec n} (h : v &&& BitVec.allOnes n = 0) : v = 0 := by
  rwa [BitVec.and_allOnes] at h

/-- A byte operand is the whole operand where bits 15 to 8 are 0 (R72). -/
theorem setWidth_byteField (w : Word24) (h : operandField w &&& 0xFF00#16 = 0#16) :
    (byteField w).setWidth 16 = operandField w := by
  rw [byteField_eq]
  generalize operandField w = v at h ⊢
  ext i hi
  replace h := getLsbD_of_and_eq_zero h i
  interval_cases i <;> simp_all

/-- A one-bit operand is the whole operand where bits 15 to 1 are 0 (R72). -/
theorem bitOperand_bitField (w : Word24) (h : operandField w &&& 0xFFFE#16 = 0#16) :
    bitOperand (bitField w) = operandField w := by
  rw [bitField_eq, bitOperand]
  generalize operandField w = v at h ⊢
  ext i hi
  replace h := getLsbD_of_and_eq_zero h i
  interval_cases i <;> simp_all

/-! ### The decoder, as the encoder's inverse (R73, R74) -/

/-- The decoder reads the one row a word selects. -/
theorem decode_of_selectedBy (w : Word24) (o : Opcode) (h : Opcode.selectedBy w o = true) :
    decode w = .instr (o.operands w) := by
  have hfind : Opcode.all.find? (Opcode.selectedBy w) = some o := by
    cases hf : Opcode.all.find? (Opcode.selectedBy w) with
    | none => exact absurd h (List.find?_eq_none.1 hf o (mem_all o))
    | some o' =>
      have ho' := opField_of_selectedBy w o' (List.find?_some hf)
      rw [opField_of_selectedBy w o h] at ho'
      rw [opField_pattern_injective o o' ho']
  rw [decode, hfind]

/-- A command the decoder answers is the operands of a row the word selects. -/
theorem selectedBy_of_decode (w : Word24) (i : Instr) (h : decode w = .instr i) :
    ∃ o, Opcode.selectedBy w o = true ∧ o.operands w = i := by
  unfold decode at h
  split at h
  · next o hf => exact ⟨o, List.find?_some hf, Decoded.instr.inj h⟩
  · cases h

/-- The word of a command selects the command's row. -/
theorem selectedBy_encode (i : Instr) : Opcode.selectedBy (encode i) i.opcode = true := by
  cases i with
  | busWrite sel b => exact Laws.EncodedRow.busWrite sel b
  | busRead sel n => exact Laws.EncodedRow.busRead sel n
  | csAssert sel => exact Laws.EncodedRow.csAssert sel
  | csDeassert sel => exact Laws.EncodedRow.csDeassert sel
  | dataDrive b => exact Laws.EncodedRow.dataDrive b
  | clkSet b => exact Laws.EncodedRow.clkSet b
  | dataSample => exact Laws.EncodedRow.dataSample
  | tickRead => exact Laws.EncodedRow.tickRead
  | tickClear => exact Laws.EncodedRow.tickClear
  | wait => exact Laws.EncodedRow.wait
  | ieSet b => exact Laws.EncodedRow.ieSet b
  | timerCfg top => exact Laws.EncodedRow.timerCfg top
  | encode number => exact Laws.EncodedRow.encode number
  | render number => exact Laws.EncodedRow.render number
  | dispClear => exact Laws.EncodedRow.dispClear

/-- The operands read back from a command's word are the command's. -/
theorem operands_encode (i : Instr) : i.opcode.operands (encode i) = i := by
  cases i with
  | dataDrive b | clkSet b | ieSet b => cases b <;> rfl
  | busWrite sel b => simp [Instr.opcode, Opcode.operands, encode, byteField_eq]
  | busRead | csAssert | csDeassert | timerCfg | encode | render => simp [Instr.opcode, Opcode.operands, encode]
  | dataSample | tickRead | tickClear | wait | dispClear => rfl

/-- A word that selects a row is the word of its operands: the bits that are no operand are fixed by the mask. -/
theorem encode_operands (w : Word24) (o : Opcode) (h : Opcode.selectedBy w o = true) : encode (o.operands w) = w := by
  have hop := opField_of_selectedBy w o h
  have hsel := selField_of_selectedBy w o h
  have hv := operandField_of_selectedBy w o h
  conv_rhs => rw [← commandWord_fields w, hop]
  cases o with
  | busWrite => exact congrArg (commandWord _ _) (setWidth_byteField w hv)
  | busRead => rfl
  | csAssert | csDeassert =>
    have hv0 : operandField w = 0 := eq_zero_of_and_allOnes hv
    rw [hv0]; rfl
  | dataDrive | clkSet | ieSet =>
    have hs0 : selField w = 0 := eq_zero_of_and_allOnes hsel
    rw [hs0]
    exact congrArg (commandWord _ _) (bitOperand_bitField w hv)
  | timerCfg | encode | render =>
    have hs0 : selField w = 0 := eq_zero_of_and_allOnes hsel
    rw [hs0]; rfl
  | dataSample | tickRead | tickClear | wait | dispClear =>
    have hv0 : operandField w = 0 := eq_zero_of_and_allOnes hv
    have hs0 : selField w = 0 := eq_zero_of_and_allOnes hsel
    rw [hs0, hv0]; rfl

/-- The words that decode to a command: its own encoding, and no other. -/
theorem decode_eq_instr_iff (w : Word24) (i : Instr) : decode w = .instr i ↔ w = encode i := by
  constructor
  · intro h
    obtain ⟨o, ho, rfl⟩ := selectedBy_of_decode w i h
    exact (encode_operands w o ho).symm
  · rintro rfl
    rw [decode_of_selectedBy _ _ (selectedBy_encode i), operands_encode]

end Sys2Proof

/-! ### Commands and HOST's turns -/

namespace Sys2Proof.Machine

/-- The state with the commands `is` as the host's program. -/
def State.withProgram (is : List Instr) (s : State) : State := { s with program := mainProgram is }

/-- The state with `q` as the command in progress. -/
def State.withSeq (q : Seq) (s : State) : State := { s with seq := q }

theorem exec_csAssert_free (sel : BitVec 4) (s : State) (hsel : sel.toNat < s.params.nsel) (hb : s.busy = false) :
    exec (.csAssert sel) s = .next (setCs sel.toNat false s) := by
  simp [exec, execCsAssert, selectorExists, hsel, hb]

theorem exec_csDeassert_of_lt (sel : BitVec 4) (s : State) (hsel : sel.toNat < s.params.nsel) :
    exec (.csDeassert sel) s = .next (setCs sel.toNat true s) := by
  simp [exec, execCsDeassert, selectorExists, hsel]

theorem exec_csDeassert_of_le (sel : BitVec 4) (s : State) (hsel : s.params.nsel ≤ sel.toNat) :
    exec (.csDeassert sel) s = .next (raiseFault .badSelector (encode (.csDeassert sel)) s) := by
  simp [exec, execCsDeassert, selectorExists, Nat.not_lt.2 hsel]

theorem exec_dataDrive (b : Level) (s : State) : exec (.dataDrive b) s = .next (driveData b s) := rfl

theorem exec_clkSet (b : Level) (s : State) : exec (.clkSet b) s = .next (setClock b s) := rfl

theorem exec_dataSample (s : State) :
    exec .dataSample s = .next (writeResult (levelWord s.din) (sampleDin s.active s)) := rfl

/-- The first micro-step of BUS_WRITE asserts the selector (R110). -/
theorem exec_busWrite_free (sel : BitVec 4) (byte : Byte) (s : State) (hsel : sel.toNat < s.params.nsel)
    (hb : s.busy = false) :
    exec (.busWrite sel byte) s
      = .next ((setCs sel.toNat false s).withSeq (.busWrite ⟨sel.toNat, byte, 7, .data⟩)) := by
  simp only [exec, execBusWrite, selectorExists, hsel, hb]
  rfl

/-- The first micro-step of BUS_READ asserts the selector (R111). -/
theorem exec_busRead_free (sel : BitVec 4) (n : Word16) (s : State) (hsel : sel.toNat < s.params.nsel)
    (hn : n.toNat ≤ s.params.resultW) (hb : s.busy = false) :
    exec (.busRead sel n) s = .next ((setCs sel.toNat false s).withSeq
      (.busRead ((ReadJob.start sel.toNat n.toNat).nextBit n.toNat))) := by
  simp only [exec, execBusRead, selectorExists, countFits, hsel, hn, hb]
  rfl

/-- HOST's turn issues the next command of a main-context program (R201). -/
theorem run_hostTurns_issue (i : Instr) (is : List Instr) (k : Nat) (s t : State) (hf : s.fault = 0)
    (hq : s.seq = .idle) (he : exec i (s.withProgram is) = .next t) :
    runTurns (hostTurns (k + 1)) (s.withProgram (i :: is)) = runTurns (hostTurns k) t := by
  have hissue : hostTurn (s.withProgram (i :: is)) = issue ⟨.main, encode i⟩ (s.withProgram is) :=
    hostTurn_issue (s.withProgram (i :: is)) ⟨.main, encode i⟩ (mainProgram is) hf hq rfl
  have hexec : issue ⟨.main, encode i⟩ (s.withProgram is) = exec i (s.withProgram is) := by
    simp only [issue, (decode_eq_instr_iff _ i).2 rfl]
  show runTurns (.host :: hostTurns k) _ = _
  simp only [runTurns, takeTurn, hissue, hexec, he]

theorem run_hostTurns_busWrite (k : Nat) (j : WriteJob) (s : State) (hf : s.fault = 0) :
    runTurns (hostTurns (k + 1)) (s.withSeq (.busWrite j))
      = runTurns (hostTurns k) (continueCommand (s.withSeq (.busWrite j))) :=
  run_hostTurns_continue k _ hf nofun

theorem run_hostTurns_busRead (k : Nat) (j : ReadJob) (s : State) (hf : s.fault = 0) :
    runTurns (hostTurns (k + 1)) (s.withSeq (.busRead j))
      = runTurns (hostTurns k) (continueCommand (s.withSeq (.busRead j))) :=
  run_hostTurns_continue k _ hf nofun

theorem withSeq_self (s : State) (q : Seq) (h : s.seq = q) : s.withSeq q = s := by
  subst h; rfl

/-- With no other selector active, the asserted selector is the active one (41_bus.md, `active()`). -/
theorem active_setCs_false (s : State) (h : s.busy = false) (k : Nat) (hk : k < s.cs.length) :
    (setCs k false s).active = some k := by
  simp only [State.active, setCs_cs, List.findIdx?_eq_some_iff_getElem]
  refine ⟨by simpa using hk, by simp, fun j hj => ?_⟩
  have hhigh : s.cs[j] = true := lines_high_of_not_busy s h _ (List.getElem_mem _)
  simp [List.getElem_set_ne (Nat.ne_of_gt hj), hhigh]

/-! ### The bits of a write: one state for the micro-steps and for the primitives (R110, R117) -/

/-- The pin operations of one bit of a write. -/
def clockBitOut (b : Level) (s : State) : State := setClock false (setClock true (driveData b s))

/-- The state after the pin operations that send the bits `bs`: DOUT, SCK 1 and SCK 0 for each. -/
def State.sent (bs : List Level) (s : State) : State :=
  { s with
    dout := bs.getLastD s.dout
    sck := if bs = [] then s.sck else false
    trace := s.trace ++ bs.flatMap bitEvents }

theorem sent_nil (s : State) : s.sent [] = s := by
  simp [State.sent]

theorem sent_cons (b : Level) (bs : List Level) (s : State) :
    s.sent (b :: bs) = State.sent bs (clockBitOut b s) := by
  simp [State.sent, clockBitOut, setClock, driveData, bitEvents, List.getLast?_cons]

/-- The bits of a byte below bit `n`, the highest first. -/
def bitsBelow (byte : Byte) : Nat → List Level
  | 0 => []
  | n + 1 => byte.getLsbD n :: bitsBelow byte n

theorem continue_writeData (sel i : Nat) (byte : Byte) (s : State) :
    continueCommand (s.withSeq (.busWrite ⟨sel, byte, i, .data⟩))
      = (driveData (byte.getLsbD i) s).withSeq (.busWrite ⟨sel, byte, i, .clkHigh⟩) := rfl

theorem continue_writeHigh (sel i : Nat) (byte : Byte) (s : State) :
    continueCommand (s.withSeq (.busWrite ⟨sel, byte, i, .clkHigh⟩))
      = (setClock true s).withSeq (.busWrite ⟨sel, byte, i, .clkLow⟩) := rfl

theorem continue_writeLow_succ (sel i : Nat) (byte : Byte) (s : State) :
    continueCommand (s.withSeq (.busWrite ⟨sel, byte, i + 1, .clkLow⟩))
      = (setClock false s).withSeq (.busWrite ⟨sel, byte, i, .data⟩) := rfl

theorem continue_writeLow_zero (sel : Nat) (byte : Byte) (s : State) :
    continueCommand (s.withSeq (.busWrite ⟨sel, byte, 0, .clkLow⟩))
      = (setClock false s).withSeq (.busWrite ⟨sel, byte, 0, .deassert⟩) := rfl

theorem continue_writeDeassert (sel i : Nat) (byte : Byte) (s : State) :
    continueCommand (s.withSeq (.busWrite ⟨sel, byte, i, .deassert⟩)) = (setCs sel true s).withSeq .idle := rfl

/-- HOST's turns from the micro-step of bit `i` to the end of a write. -/
theorem run_writeBits (sel : Nat) (byte : Byte) (i : Nat) (s : State) (hf : s.fault = 0) (hq : s.seq = .idle) :
    runTurns (hostTurns (3 * (i + 1) + 1)) (s.withSeq (.busWrite ⟨sel, byte, i, .data⟩))
      = .next (setCs sel true (s.sent (bitsBelow byte (i + 1)))) := by
  induction i generalizing s with
  | zero =>
    rw [bitsBelow, sent_cons, bitsBelow, sent_nil, run_hostTurns_busWrite, continue_writeData, run_hostTurns_busWrite,
      continue_writeHigh, run_hostTurns_busWrite, continue_writeLow_zero, run_hostTurns_busWrite,
      continue_writeDeassert, withSeq_self]
    · rfl
    · exact hq
    all_goals exact hf
  | succ i ih =>
    rw [bitsBelow, sent_cons, ← ih (clockBitOut (byte.getLsbD (i + 1)) s) hf hq, Nat.mul_add_one, Nat.add_right_comm,
      run_hostTurns_busWrite, continue_writeData, run_hostTurns_busWrite, continue_writeHigh, run_hostTurns_busWrite,
      continue_writeLow_succ]
    · rfl
    all_goals exact hf

/-- HOST's turns after the first micro-step of BUS_WRITE. -/
theorem run_busWrite (sel : Nat) (byte : Byte) (s : State) (hf : s.fault = 0) (hq : s.seq = .idle) :
    runTurns (hostTurns 25) (s.withSeq (.busWrite ⟨sel, byte, 7, .data⟩))
      = .next (setCs sel true (s.sent (bitsBelow byte 8))) :=
  run_writeBits sel byte 7 s hf hq

/-- The three primitives of each bit send it. -/
theorem run_writePrimitives (bs : List Level) (is : List Instr) (k : Nat) (s : State) (hf : s.fault = 0)
    (hq : s.seq = .idle) :
    runTurns (hostTurns (3 * bs.length + k)) (s.withProgram
        (bs.flatMap (fun b => [.dataDrive b, .clkSet true, .clkSet false]) ++ is))
      = runTurns (hostTurns k) ((s.sent bs).withProgram is) := by
  induction bs generalizing s with
  | nil => simp [sent_nil]
  | cons b bs ih =>
    rw [sent_cons, ← ih (clockBitOut b s) hf hq, List.length_cons, Nat.mul_add_one, Nat.add_right_comm]
    simp only [List.flatMap_cons, List.cons_append, List.nil_append]
    rw [run_hostTurns_issue _ _ _ s ((driveData b s).withProgram _) hf hq rfl,
      run_hostTurns_issue _ _ _ (driveData b s) ((setClock true (driveData b s)).withProgram _) hf hq rfl,
      run_hostTurns_issue _ _ _ (setClock true (driveData b s)) _ hf hq rfl]
    rfl

/-! ### The bits of a read: one state for the micro-steps and for the primitives (R111, R118) -/

/-- The pin operations of one bit of a read from selector `sel`. -/
def clockBitIn (sel : Nat) (s : State) : State := setClock false (sampleDin (some sel) (setClock true s))

/-- The state after the pin operations that read `n` bits from selector `sel`. -/
def State.clockedIn (sel n : Nat) (s : State) : State :=
  { s with
    sck := if n = 0 then s.sck else false
    dinInput := s.dinInput.drop n
    draws := s.draws + n
    trace := s.trace ++ (s.samples n).flatMap fun b => [.sck true, .sample (some sel) b, .sck false] }

theorem clockedIn_zero (sel : Nat) (s : State) : s.clockedIn sel 0 = s := by
  simp [State.clockedIn, State.samples, drawnLevels]

theorem samples_succ (sel n : Nat) (s : State) :
    s.samples (n + 1) = s.din :: (clockBitIn sel s).samples n := rfl

theorem clockedIn_succ (sel n : Nat) (s : State) :
    s.clockedIn sel (n + 1) = State.clockedIn sel n (clockBitIn sel s) := by
  simp [State.clockedIn, samples_succ sel, clockBitIn, State.din, Nat.add_comm 1, Nat.add_assoc, setClock, sampleDin]

theorem continue_readHigh (sel n i : Nat) (acc : Word32) (s : State) :
    continueCommand (s.withSeq (.busRead ⟨sel, n, i, acc, .clkHigh⟩))
      = (setClock true s).withSeq (.busRead ⟨sel, n, i, acc, .sample⟩) := rfl

theorem continue_readSample (sel n i : Nat) (acc : Word32) (s : State) :
    continueCommand (s.withSeq (.busRead ⟨sel, n, i, acc, .sample⟩))
      = (sampleDin (some sel) s).withSeq (.busRead ⟨sel, n, i, accumulate s.params acc s.din, .clkLow⟩) := rfl

theorem continue_readLow (sel n i : Nat) (acc : Word32) (s : State) :
    continueCommand (s.withSeq (.busRead ⟨sel, n, i, acc, .clkLow⟩))
      = (setClock false s).withSeq (.busRead (ReadJob.nextBit ⟨sel, n, i, acc, .clkLow⟩ i)) := rfl

theorem continue_readDeassert (sel n i : Nat) (acc : Word32) (s : State) :
    continueCommand (s.withSeq (.busRead ⟨sel, n, i, acc, .deassert⟩))
      = (writeResult (truncTo s.params.resultW acc) (setCs sel true s)).withSeq .idle := rfl

/-- HOST's turns from a point of a read with `k` bits still to read to its end. -/
theorem run_readBits (k : Nat) (j : ReadJob) (s : State) (hf : s.fault = 0) (hq : s.seq = .idle) :
    runTurns (hostTurns (3 * k + 1)) (s.withSeq (.busRead (j.nextBit k)))
      = .next (writeResult (truncTo s.params.resultW ((s.samples k).foldl (accumulate s.params) j.acc))
          (setCs j.sel true (s.clockedIn j.sel k))) := by
  induction k generalizing j s with
  | zero =>
    rw [run_hostTurns_busRead _ _ _ hf, clockedIn_zero, ReadJob.nextBit, continue_readDeassert, withSeq_self]
    · rfl
    · exact hq
  | succ k ih =>
    rw [clockedIn_succ, samples_succ j.sel, List.foldl_cons, ReadJob.nextBit, Nat.mul_add_one, Nat.add_right_comm,
      run_hostTurns_busRead, continue_readHigh, run_hostTurns_busRead, continue_readSample, run_hostTurns_busRead,
      continue_readLow]
    · exact ih ⟨j.sel, j.n, k, accumulate s.params j.acc s.din, .clkLow⟩ (clockBitIn j.sel s) hf hq
    all_goals exact hf

/-- The state after `n` bits read by primitives: RESULT holds the last sample (R116). -/
def State.readByPrimitives (sel n : Nat) (s : State) : State :=
  { s.clockedIn sel n with
    result := ((s.samples n).map levelWord).getLastD s.result
    resultValid := decide (n ≠ 0) || s.resultValid }

theorem readByPrimitives_zero (sel : Nat) (s : State) : s.readByPrimitives sel 0 = s := by
  rw [State.readByPrimitives, clockedIn_zero]
  simp [State.samples, drawnLevels]

theorem readByPrimitives_succ (sel n : Nat) (s : State) :
    s.readByPrimitives sel (n + 1)
      = State.readByPrimitives sel n (writeResult (levelWord s.din) (clockBitIn sel s)) := by
  have hvalid : (decide (n + 1 ≠ 0) || s.resultValid) = (decide (n ≠ 0) || true) := by simp
  rw [State.readByPrimitives, clockedIn_succ, samples_succ sel, List.map_cons, List.getLastD_cons, hvalid]
  rfl

/-- The three primitives of each bit read it, under the active selector. -/
theorem run_readPrimitives (sel n : Nat) (is : List Instr) (k : Nat) (s : State) (hf : s.fault = 0)
    (hq : s.seq = .idle) (ha : s.active = some sel) :
    runTurns (hostTurns (3 * n + k)) (s.withProgram
        ((List.replicate n [.clkSet true, .dataSample, .clkSet false]).flatten ++ is))
      = runTurns (hostTurns k) ((s.readByPrimitives sel n).withProgram is) := by
  induction n generalizing s with
  | zero => simp [readByPrimitives_zero]
  | succ n ih =>
    have hsample : ∀ p, exec .dataSample ((setClock true s).withProgram p) = .next
        ((writeResult (levelWord s.din) (sampleDin (some sel) (setClock true s))).withProgram p) := by
      intro p
      rw [exec_dataSample, ← ha]
      rfl
    rw [readByPrimitives_succ, ← ih (writeResult (levelWord s.din) (clockBitIn sel s)) hf hq ha, Nat.mul_add_one,
      Nat.add_right_comm]
    simp only [List.replicate_succ, List.flatten_cons, List.cons_append, List.nil_append]
    rw [run_hostTurns_issue _ _ _ s ((setClock true s).withProgram _) hf hq rfl,
      run_hostTurns_issue _ _ _ (setClock true s) _ hf hq (hsample _),
      run_hostTurns_issue _ _ _ (writeResult (levelWord s.din) (sampleDin (some sel) (setClock true s))) _ hf hq rfl]
    rfl

/-! ### The bus statements -/

/-- Every bit sent has exactly one rising clock event. -/
theorem length_filter_sckHigh_bitEvents (bs : List Level) :
    ((bs.flatMap bitEvents).filter fun e => decide (e = .sck true)).length = bs.length := by
  induction bs with
  | nil => rfl
  | cons b bs ih => simpa [bitEvents] using ih

/-- Settles O25: the bits of `State.sent` are the byte's, and each brings one rising clock edge. -/
theorem writeTraceRoundTrip : Obligations.WriteTraceRoundTrip := by
  intro s sel byte ⟨hq, hf, hb⟩ hlen hsel
  have hline : sel.toNat < s.cs.length := hlen ▸ hsel
  refine ⟨_, _, (bitsBelow byte 8).flatMap bitEvents, exec_busWrite_free sel byte s hsel hb,
    run_busWrite sel.toNat byte (setCs sel.toNat false s) hf hq, ?_, ?_, rfl, rfl, length_filter_sckHigh_bitEvents _⟩
  · rw [List.getElem?_eq_getElem hline, lines_high_of_not_busy s hb _ (List.getElem_mem hline)]
  · exact List.getElem?_set_self (by simpa [State.sent] using hline)

/-- Settles O29: no overlap check stands before the line is driven. -/
theorem csDeassertReleasesItsLine : Obligations.CsDeassertReleasesItsLine := by
  intro s sel
  refine ⟨fun w => decode_eq_instr_iff w _, fun hsel => exec_csDeassert_of_lt sel s hsel, fun hhigh => ?_,
    fun k hk => List.getElem?_set_ne hk.symm, fun hsel => exec_csDeassert_of_le sel s hsel⟩
  obtain ⟨hlt, hval⟩ := List.getElem?_eq_some_iff.1 hhigh
  rw [← hval, List.set_getElem_self]

theorem encode_dataDrive (b : Level) : encode (.dataDrive b) = 0x5#4 ++ 0#19 ++ BitVec.ofBool b := by
  cases b <;> decide

theorem encode_clkSet (b : Level) : encode (.clkSet b) = 0x6#4 ++ 0#19 ++ BitVec.ofBool b := by
  cases b <;> decide

/-- Only a change of SCK from 0 to 1 with a selector active latches, and it latches DOUT (R103). -/
theorem deviceLatches_clock (sck dout b : Level) (sel : Option Nat) :
    deviceLatches sck dout sel [.sck b]
      = if sck = false ∧ b = true then sel.toList.map fun k => (k, dout) else [] := by
  cases sel with
  | none => simp [deviceLatches]
  | some k => cases sck <;> cases b <;> rfl

/-- Settles O30: each primitive's meaning is its one pin operation, and each has the encoder's word alone. -/
theorem pinPrimitives : Obligations.PinPrimitives := by
  intro s b
  exact ⟨fun w => encode_dataDrive b ▸ decode_eq_instr_iff w _, exec_dataDrive b s,
    fun w => encode_clkSet b ▸ decode_eq_instr_iff w _, exec_clkSet b s,
    deviceLatches_clock s.sck s.dout b s.active, rfl, fun w => decode_eq_instr_iff w .dataSample,
    exec_dataSample s⟩

/-- Settles O31: both programs assert the line, send the byte's bits (`State.sent`) and release the line. -/
theorem writeEqualsItsPrimitives : Obligations.WriteEqualsItsPrimitives := by
  intro s sel byte ⟨hq, hf, hb⟩ hsel
  refine ⟨(setCs sel.toNat true ((setCs sel.toNat false s).sent (bitsBelow byte 8))).withProgram [], ?_, ?_⟩
  · exact (run_hostTurns_issue _ [] 25 s _ hf hq (exec_busWrite_free sel byte _ hsel hb)).trans
      (run_busWrite sel.toNat byte ((setCs sel.toNat false s).withProgram []) hf hq)
  · refine (run_hostTurns_issue _ _ 25 s _ hf hq (exec_csAssert_free sel _ hsel hb)).trans ?_
    refine (run_writePrimitives (bitsBelow byte 8) [.csDeassert sel] 1 (setCs sel.toNat false s) hf hq).trans ?_
    exact run_hostTurns_issue _ [] 0 (State.sent _ _) _ hf hq (exec_csDeassert_of_lt sel _ hsel)

/-- What the primitives leave in RESULT: the last sample, if there was one. -/
theorem readByPrimitives_result (sel n : Nat) (s : State) :
    (s.readByPrimitives sel n).result
      = if n = 0 then s.result else if (s.samples n).getLastD false then 1 else 0 := by
  cases n with
  | zero => rfl
  | succ n =>
    show ((s.samples (n + 1)).map levelWord).getLastD s.result = levelWord ((s.samples (n + 1)).getLastD false)
    rw [samples_succ sel, List.map_cons, List.getLastD_cons, List.getLastD_cons]
    simp only [List.getLastD_eq_getLast?, List.getLast?_map, Option.getD_map]

theorem readByPrimitives_resultValid (sel n : Nat) (s : State) :
    (s.readByPrimitives sel n).resultValid = if n = 0 then s.resultValid else true := by
  cases n <;> simp [State.readByPrimitives]

/-- Two states that differ in RESULT only. -/
theorem eq_with_result {t u : State} {r : Word32} {v : Bool}
    (h : u = { t with result := u.result, resultValid := u.resultValid }) (hr : u.result = r)
    (hv : u.resultValid = v) : u = { t with result := r, resultValid := v } := by
  subst hr hv
  exact h

/-- Settles O32: both programs assert the line, read the bits (`State.clockedIn`) and release the line; they differ in
what they leave in RESULT. -/
theorem readFromPrimitives : Obligations.ReadFromPrimitives := by
  intro s sel n ⟨hq, hf, hb⟩ _ hlen hsel hn
  have hactive : (setCs sel.toNat false s).active = some sel.toNat := active_setCs_false s hb _ (hlen ▸ hsel)
  have hread := (run_hostTurns_issue _ [] (3 * n.toNat + 1) s _ hf hq (exec_busRead_free sel n _ hsel hn hb)).trans
    (run_readBits n.toNat _ ((setCs sel.toNat false s).withProgram []) hf hq)
  have hprimitives := (run_hostTurns_issue _ _ (3 * n.toNat + 1) s _ hf hq (exec_csAssert_free sel _ hsel hb)).trans
    ((run_readPrimitives sel.toNat n.toNat [.csDeassert sel] 1 (setCs sel.toNat false s) hf hq hactive).trans
      (run_hostTurns_issue _ [] 0 (State.readByPrimitives _ _ _) _ hf hq (exec_csDeassert_of_lt sel _ hsel)))
  have hresult := readByPrimitives_result sel.toNat n.toNat (setCs sel.toNat false s)
  have hvalid := readByPrimitives_resultValid sel.toNat n.toNat (setCs sel.toNat false s)
  have hzero : n = 0 ↔ n.toNat = 0 := BitVec.toNat_inj.symm
  simp only [hzero]
  exact ⟨_, _, hread, hprimitives, eq_with_result rfl hresult hvalid⟩

end Sys2Proof.Machine

/-! ### TICK's value and its one more (R30, R152) -/

namespace Sys2Proof.Machine

@[simp] theorem truncTo_zero (w : Nat) : truncTo w 0#32 = 0#32 := by
  simp [truncTo]

/-- One more, in the 32-bit container, is one more in the register's own width (R30). -/
theorem truncTo_add_one (w : Nat) (hw : w ≤ 32) (v : Word32) :
    truncTo w (v + 1) = BitVec.ofNat 32 ((v.toNat + 1) % 2 ^ w) := by
  have hmod : (v + 1).toNat % 2 ^ w = (v.toNat + 1) % 2 ^ w := by
    rw [BitVec.toNat_add]
    exact Nat.mod_mod_of_dvd _ (pow_dvd_pow 2 hw)
  rw [truncTo, hmod]

theorem tickW_le_of_wf {p : Params} (hp : p.wf = true) : p.tickW ≤ 32 := by
  obtain ⟨-, -, -, -, -, hw, -⟩ := (params_wf_iff p).1 hp
  exact hw

theorem one_lt_two_pow_tickW {p : Params} (hp : p.wf = true) : 1 < 2 ^ p.tickW := by
  obtain ⟨-, -, -, -, hw, -, -⟩ := (params_wf_iff p).1 hp
  exact Nat.one_lt_two_pow (by omega)

theorem tickValue_lt (s : State) (hp : s.params.wf = true) : s.tickValue.toNat < 2 ^ s.params.tickW :=
  truncTo_lt _ (tickW_le_of_wf hp) _

theorem serviceEnabled_iff (s : State) : s.serviceEnabled = true ↔ s.pend = true ∧ s.gie = true := by
  simp [State.serviceEnabled]

/-- An enabled service gives TICK one more, modulo 2^TICK_W. -/
theorem tickService_tickValue (s : State) (hp : s.params.wf = true) (he : s.serviceEnabled = true) :
    (tickService s).tickValue = BitVec.ofNat 32 ((s.tickValue.toNat + 1) % 2 ^ s.params.tickW) := by
  obtain ⟨hpend, hgie⟩ := (serviceEnabled_iff s).1 he
  have hw := tickW_le_of_wf hp
  rw [tickService_on s hpend hgie, State.tickValue, truncTo_truncTo _ hw, truncTo_add_one _ hw]

theorem tickService_tickValue_toNat (s : State) (hp : s.params.wf = true) (he : s.serviceEnabled = true) :
    (tickService s).tickValue.toNat = (s.tickValue.toNat + 1) % 2 ^ s.params.tickW := by
  have hlt : (s.tickValue.toNat + 1) % 2 ^ s.params.tickW < 2 ^ 32 :=
    (Nat.mod_lt _ (by positivity)).trans_le (Nat.pow_le_pow_right (by decide) (tickW_le_of_wf hp))
  rw [tickService_tickValue s hp he, BitVec.toNat_ofNat, Nat.mod_eq_of_lt hlt]

/-! ### The timer's turns (R150) -/

theorem rollsOver_iff (s : State) : s.rollsOver = true ↔ s.tcnt = s.top - 1 := by
  simp [State.rollsOver]

/-- With TEN = 1, TCNT < TOP (R150). -/
def State.TimerOk (s : State) : Prop := s.ten = true → s.tcnt < s.top

theorem timerClk_timerOk (s : State) (h : s.TimerOk) : (timerClk s).TimerOk := by
  cases hten : s.ten with
  | false => rwa [timerClk_off s hten]
  | true =>
    have hlt := h hten
    by_cases hroll : s.tcnt = s.top - 1
    · rw [timerClk_roll s hten hroll]
      intro _
      show 0 < s.top
      bv_omega
    · rw [timerClk_count s hten hroll]
      intro _
      show s.tcnt + 1 < s.top
      bv_omega

theorem runTurns_timerClk (ts : List Turn) (s : State) :
    runTurns (.timerClk :: ts) s = runTurns ts (timerClk s) := rfl

/-- Below TOP the TIMER turns count. -/
theorem run_timerClk_count (k : Nat) (s : State) (hten : s.ten = true) (hk : s.tcnt.toNat + k < s.top.toNat) :
    runTurns (List.replicate k .timerClk) s = .next { s with tcnt := s.tcnt + BitVec.ofNat 16 k } := by
  induction k generalizing s with
  | zero => simp [runTurns]
  | succ k ih =>
    have hroll : s.tcnt ≠ s.top - 1 := by bv_omega
    have hcount : (s.tcnt + 1).toNat + k < s.top.toNat := by bv_omega
    have hsum : s.tcnt + 1 + BitVec.ofNat 16 k = s.tcnt + BitVec.ofNat 16 (k + 1) := by
      rw [BitVec.add_assoc, Nat.add_comm k 1, BitVec.ofNat_add]
      rfl
    rw [List.replicate_succ, runTurns_timerClk, timerClk_count s hten hroll,
      ih { s with tcnt := s.tcnt + 1 } hten hcount]
    simp only [hsum]

/-- The turn that takes TCNT to TOP rolls it over. -/
theorem run_timerClk_rollOver (s : State) (hten : s.ten = true) (hlt : s.tcnt < s.top) :
    runTurns (List.replicate (s.top.toNat - s.tcnt.toNat) .timerClk) s
      = .next { s with tcnt := 0, pend := true } := by
  obtain ⟨k, hk⟩ : ∃ k, s.top.toNat - s.tcnt.toNat = k + 1 := ⟨s.top.toNat - s.tcnt.toNat - 1, by bv_omega⟩
  have hlast : s.tcnt + BitVec.ofNat 16 k = s.top - 1 := by bv_omega
  rw [hk, List.replicate_succ', runTurns_append _ _ _ _ (run_timerClk_count k s hten (by omega)), runTurns_timerClk,
    timerClk_roll { s with tcnt := s.tcnt + BitVec.ofNat 16 k } hten hlast]
  rfl

/-! ### What HOST's turn does to the tick unit -/

/-- A state without what the bus and encoder commands, a fault and HOST's issue write, here set to fixed values. What is
left holds the parameters, GIE, PEND, SLEEP, TEN, TOP, TCNT and TICK (R22). -/
def State.withoutBus (s : State) : State :=
  { s with
    result := 0, resultValid := false, fault := 0, faultCmd := 0, last := none, sck := false, dout := false, cs := []
    seq := .idle, trace := [], program := [], dinInput := [], draws := 0 }

@[simp] theorem setCs_withoutBus (k : Nat) (v : Level) (s : State) : (setCs k v s).withoutBus = s.withoutBus := rfl

@[simp] theorem writeResult_withoutBus (v : Word32) (s : State) : (writeResult v s).withoutBus = s.withoutBus := rfl

@[simp] theorem raiseFault_withoutBus (c : FaultCode) (w : Word24) (s : State) :
    (raiseFault c w s).withoutBus = s.withoutBus := by
  rw [raiseFault_frame]
  rfl

@[simp] theorem continueCommand_withoutBus (s : State) : (continueCommand s).withoutBus = s.withoutBus := by
  rw [continueCommand_frame]
  rfl

@[simp] theorem beginCommand_withoutBus (q : Seq) (s : State) : (beginCommand q s).withoutBus = s.withoutBus :=
  continueCommand_withoutBus { s with seq := q }

theorem tickValue_of_withoutBus_eq {s t : State} (h : t.withoutBus = s.withoutBus) : t.tickValue = s.tickValue :=
  (congrArg State.tickValue h :)

theorem params_of_withoutBus_eq {s t : State} (h : t.withoutBus = s.withoutBus) : t.params = s.params :=
  (congrArg State.params h :)

theorem timerOk_of_withoutBus_eq {s t : State} (h : t.withoutBus = s.withoutBus) (hs : s.TimerOk) : t.TimerOk :=
  (congrArg State.TimerOk h :).mpr hs

/-- What the issue of a command does to the tick unit: only the tick family's commands have one (R140 to R144). -/
def tickEffect (i : Instr) (s : State) : State :=
  match i with
  | .tickClear => writeTick 0 s
  | .wait => { s with sleep := true }
  | .ieSet b => { s with gie := b }
  | .timerCfg top => { s with top := top, tcnt := 0, ten := decide (top ≠ 0) }
  | .busWrite _ _ | .busRead _ _ | .csAssert _ | .csDeassert _ | .dataDrive _ | .clkSet _ | .dataSample | .tickRead
  | .encode _ | .render _ | .dispClear => s

theorem exec_withoutBus (i : Instr) (s t : State) (h : exec i s = .next t) :
    t.withoutBus = (tickEffect i s).withoutBus := by
  cases i with
  | dataDrive | clkSet | dataSample | tickRead | tickClear | wait | ieSet | timerCfg =>
    cases h
    rfl
  | busWrite | busRead | csAssert | csDeassert | encode | render | dispClear =>
    simp only [exec, execBusWrite, execBusRead, execCsAssert, execCsDeassert, execEncode, execRender,
      execDispClear] at h
    split_ifs at h <;> cases h <;> simp [tickEffect]

theorem aboutToIssue_iff (i : Instr) (s : State) :
    s.aboutToIssue i = true ↔ s.canIssue = true
      ∧ ∃ c rest, s.program = c :: rest ∧ c.context = .main ∧ decode c.word = .instr i := by
  unfold State.aboutToIssue
  cases s.program <;> simp

/-- HOST's turn leaves the tick unit as it is, or has the effect on it of the command it issues. -/
theorem hostTurn_withoutBus (s t : State) (h : hostTurn s = .next t) :
    t.withoutBus = s.withoutBus
      ∨ ∃ i, s.aboutToIssue i = true ∧ t.withoutBus = (tickEffect i s).withoutBus := by
  obtain ⟨-, hnext⟩ | ⟨-, -, -, hnext⟩ | ⟨c, rest, hf, hq, hp, hnext⟩ | ⟨-, -, hnext⟩ := hostTurn_cases s <;>
    rw [hnext] at h
  · cases h
    exact .inl rfl
  · cases h
    exact .inl rfl
  · unfold issue at h
    split at h
    next => cases h
    next hmain =>
      split at h
      next => cases h; exact .inl (raiseFault_withoutBus ..)
      next i hi =>
        refine .inr ⟨i, (aboutToIssue_iff i s).2 ⟨by simp [State.canIssue, hf, hq], c, rest, hp, hmain, hi⟩, ?_⟩
        rw [exec_withoutBus i _ t h]
        cases i <;> rfl
  · cases h
    exact .inl (continueCommand_withoutBus s)

theorem tickEffect_tickValue (i : Instr) (s : State) (hi : i ≠ .tickClear) :
    (tickEffect i s).tickValue = s.tickValue := by
  cases i with
  | tickClear => exact absurd rfl hi
  | _ => rfl

theorem tickEffect_params (i : Instr) (s : State) : (tickEffect i s).params = s.params := by
  cases i <;> rfl

theorem tickEffect_timerOk (i : Instr) (s : State) (h : s.TimerOk) : (tickEffect i s).TimerOk := by
  cases i with
  | timerCfg top =>
    intro hten
    have htop : top ≠ 0 := of_decide_eq_true hten
    show 0 < top
    bv_omega
  | _ => exact h

/-- HOST's turn changes TICK only by issuing TICK_CLEAR. -/
theorem hostTurn_tickValue (s t : State) (h : hostTurn s = .next t) :
    t.tickValue = s.tickValue ∨ s.aboutToIssue .tickClear = true ∧ t.tickValue = 0 := by
  obtain heq | ⟨i, hissue, heq⟩ := hostTurn_withoutBus s t h
  · exact .inl (tickValue_of_withoutBus_eq heq)
  · have htick := tickValue_of_withoutBus_eq heq
    by_cases hi : i = .tickClear
    · subst hi
      exact .inr ⟨hissue, htick.trans (by simp [tickEffect, State.tickValue])⟩
    · exact .inl (htick.trans (tickEffect_tickValue i s hi))

theorem hostTurn_timerOk (s t : State) (h : hostTurn s = .next t) (hs : s.TimerOk) : t.TimerOk := by
  obtain heq | ⟨i, -, heq⟩ := hostTurn_withoutBus s t h
  · exact timerOk_of_withoutBus_eq heq hs
  · exact timerOk_of_withoutBus_eq heq (tickEffect_timerOk i s hs)

theorem hostTurn_params (s t : State) (h : hostTurn s = .next t) : t.params = s.params := by
  obtain heq | ⟨i, -, heq⟩ := hostTurn_withoutBus s t h
  · exact params_of_withoutBus_eq heq
  · exact (params_of_withoutBus_eq heq).trans (tickEffect_params i s)

/-! ### What any turn does to the timer and to TICK -/

/-- Every turn, a power-on too, keeps TCNT below TOP while the timer runs (R150). -/
theorem takeTurn_timerOk (x : Turn) (s t : State) (h : takeTurn x s = .next t) (hs : s.TimerOk) : t.TimerOk := by
  by_cases hx : x = .powerOn
  · subst hx
    cases h
    exact nofun
  · obtain ⟨rfl, -⟩ | ⟨-, hhost⟩ | ⟨-, rfl⟩ | ⟨-, rfl⟩ := takeTurn_cases x hx s t h
    · exact hs
    · exact hostTurn_timerOk s t hhost hs
    · exact timerClk_timerOk s hs
    · rw [tickService_frame]
      exact hs

theorem takeTurn_params (x : Turn) (hx : x ≠ .powerOn) (s t : State) (h : takeTurn x s = .next t) :
    t.params = s.params := by
  obtain ⟨rfl, -⟩ | ⟨-, hhost⟩ | ⟨-, rfl⟩ | ⟨-, rfl⟩ := takeTurn_cases x hx s t h
  · rfl
  · exact hostTurn_params s t hhost
  · rw [timerClk_frame]
  · rw [tickService_frame]

/-- A turn that is no power-on keeps TICK, is an enabled service, or issues TICK_CLEAR (R22, R155). -/
theorem takeTurn_tickValue_cases (x : Turn) (hx : x ≠ .powerOn) (s t : State) (h : takeTurn x s = .next t) :
    (¬(x = .tickService ∧ s.serviceEnabled = true) ∧ t.tickValue = s.tickValue)
      ∨ (x = .tickService ∧ s.serviceEnabled = true ∧ t = tickService s)
      ∨ (x = .host ∧ s.aboutToIssue .tickClear = true ∧ t.tickValue = 0) := by
  obtain ⟨rfl, p, rfl⟩ | ⟨rfl, hhost⟩ | ⟨rfl, rfl⟩ | ⟨rfl, rfl⟩ := takeTurn_cases x hx s t h
  · exact .inl ⟨nofun, rfl⟩
  · obtain hkeep | hclear := hostTurn_tickValue s t hhost
    · exact .inl ⟨nofun, hkeep⟩
    · exact .inr (.inr ⟨rfl, hclear⟩)
  · exact .inl ⟨nofun, by rw [timerClk_frame]; rfl⟩
  · by_cases he : s.serviceEnabled = true
    · exact .inr (.inl ⟨rfl, he, rfl⟩)
    · exact .inl ⟨fun hon => he hon.2, by rw [tickService, if_neg he]⟩

/-- A turn that issues no TICK_CLEAR adds to TICK the services it takes. -/
theorem takeTurn_tickValue_toNat (x : Turn) (hx : x ≠ .powerOn) (s t : State) (hp : s.params.wf = true)
    (hclear : (decide (x = .host) && s.aboutToIssue .tickClear) = false) (h : takeTurn x s = .next t) :
    t.tickValue.toNat
      = (s.tickValue.toNat + if x = .tickService ∧ s.serviceEnabled = true then 1 else 0) % 2 ^ s.params.tickW := by
  obtain ⟨hoff, hkeep⟩ | ⟨hx, he, rfl⟩ | ⟨rfl, hissue, -⟩ := takeTurn_tickValue_cases x hx s t h
  · rw [if_neg hoff, Nat.add_zero, Nat.mod_eq_of_lt (tickValue_lt s hp), hkeep]
  · rw [if_pos ⟨hx, he⟩, tickService_tickValue_toNat s hp he]
  · simp [hissue] at hclear

theorem runTurns_cons_next (x : Turn) (ts : List Turn) (s t : State) (h : runTurns (x :: ts) s = .next t) :
    ∃ u, takeTurn x s = .next u ∧ runTurns ts u = .next t := by
  unfold runTurns at h
  split at h
  next u hu => exact ⟨u, hu, h⟩
  next => cases h
  next => cases h

theorem issues_iff (s : State) (i : Instr) : s.issues i ↔ s.nextTurn = .host ∧ s.aboutToIssue i = true := by
  rw [aboutToIssue_iff, State.issues]

/-! ### The tick statements -/

theorem encode_ieSet (b : Level) : encode (.ieSet b) = 0xB#4 ++ 0#19 ++ BitVec.ofBool b := by
  cases b <;> decide

theorem encode_timerCfg (top : Word16) : encode (.timerCfg top) = 0xC0#8 ++ top := rfl

/-- Settles O34: RESULT takes the register's value, and an enabled service gives the register one more. -/
theorem tickReadCopiesTick : Obligations.TickReadCopiesTick := by
  intro s hp
  refine ⟨fun w => decode_eq_instr_iff w _, rfl, truncTo_toNat _ (tickW_le_of_wf hp) _, fun he => ?_⟩
  rw [← tickService_tickValue s hp he]
  rfl

theorem exec_tickClear (s : State) : exec .tickClear s = .next { s with tick := 0 } := by
  simp [exec, execTickClear, writeTick]

/-- Settles O35: one more than 0 is 1 at every width of R7. -/
theorem tickClearZeroesTick : Obligations.TickClearZeroesTick := by
  intro s hp
  refine ⟨fun w => decode_eq_instr_iff w _, exec_tickClear s, fun hpend hgie => ?_⟩
  have hzero : State.tickValue { s with tick := 0 } = 0 := truncTo_zero _
  rw [tickService_tickValue { s with tick := 0 } hp ((serviceEnabled_iff _).2 ⟨hpend, hgie⟩), hzero]
  show BitVec.ofNat 32 (1 % 2 ^ s.params.tickW) = 1
  rw [Nat.mod_eq_of_lt (one_lt_two_pow_tickW hp)]
  rfl

/-- Settles O41: the turns below the roll-over count from 0, and the top-th takes TCNT from top - 1. -/
theorem timerCfgRestartsTimer : Obligations.TimerCfgRestartsTimer := by
  intro s top
  refine ⟨fun w => encode_timerCfg top ▸ decode_eq_instr_iff w _, rfl, fun k hk => ?_, fun htop => ?_, rfl⟩
  · have hten : decide (top ≠ 0) = true := decide_eq_true (by rintro rfl; exact absurd hk (Nat.not_lt_zero k))
    simpa using run_timerClk_count k { s with top := top, tcnt := 0, ten := decide (top ≠ 0) } hten (by simpa using hk)
  · have hlt : 0 < top := by bv_omega
    exact run_timerClk_rollOver { s with top := top, tcnt := 0, ten := true } rfl hlt

/-- Settles O42: `State.TimerOk` is kept by every turn. -/
theorem timerClkCountsModuloTop : Obligations.TimerClkCountsModuloTop := by
  refine ⟨fun s => ⟨fun hten hroll => ?_, fun hten hroll => ?_, fun hten => ?_, fun hten hlt => ?_⟩,
    fun s t hs hstep => takeTurn_timerOk _ s.advance t hstep hs, fun _ _ => rfl⟩
  · rw [takeTurn, timerClk_roll s hten hroll]
  · rw [takeTurn, timerClk_count s hten hroll]
  · rw [takeTurn, timerClk_off s hten]
  · have hten' : (timerClk s).ten = true := by rw [timerClk_frame]; exact hten
    exact timerClk_timerOk s (fun _ => hlt) hten'

/-- Settles O45: the sum in TICK's 32-bit container, cut to TICK_W bits, is the sum modulo 2^TICK_W. -/
theorem tickServiceIsAtomic : Obligations.TickServiceIsAtomic := by
  intro s hp
  refine ⟨fun hpend hgie => ?_, fun hoff => ?_⟩
  · rw [takeTurn, tickService_on s hpend hgie, truncTo_add_one _ (tickW_le_of_wf hp)]
  · rw [takeTurn, tickService_off s hoff]

/-- Settles O46, by induction on the turns: each adds to TICK the services it takes. -/
theorem tickCountsServices : Obligations.TickCountsServices := by
  intro ts
  induction ts with
  | nil =>
    intro s t hp _ _ h
    cases h
    exact (Nat.mod_eq_of_lt (tickValue_lt s hp)).symm
  | cons x ts ih =>
    intro s t hp hts hclear h
    obtain ⟨hx, hts⟩ := List.forall_mem_cons.1 hts
    obtain ⟨u, hu, hrun⟩ := runTurns_cons_next x ts s t h
    rw [issuedIn_cons _ _ _ _ _ hu, Bool.or_eq_false_iff] at hclear
    obtain ⟨hfirst, hrest⟩ := hclear
    have hparams := takeTurn_params x hx s u hu
    rw [ih u t (hparams ▸ hp) hts hrest hrun, hparams, takeTurn_tickValue_toNat x hx s u hp hfirst hu,
      servicesTaken_cons _ _ _ _ hu, Nat.mod_add_mod, Nat.add_assoc]

/-- Settles O47: of the turns that change TICK, a service wraps it exactly at its highest value. -/
theorem tickWrapsAtItsWidth : Obligations.TickWrapsAtItsWidth := by
  have hwrap : ∀ s : State, s.params.wf = true → s.tickValue.toNat = 2 ^ s.params.tickW - 1 →
      s.serviceEnabled = true → (tickService s).tickValue = 0 := by
    intro s hp hmax he
    rw [tickService_tickValue s hp he, hmax, Nat.sub_add_cancel Nat.one_le_two_pow, Nat.mod_self]
    rfl
  refine ⟨fun s t hp hx hstep => ?_, hwrap⟩
  obtain ⟨-, hkeep⟩ | ⟨hx, he, rfl⟩ | ⟨hx, hissue, hzero⟩ := takeTurn_tickValue_cases s.nextTurn hx s.advance t hstep
  · exact .inl hkeep
  · by_cases hmax : s.tickValue.toNat = 2 ^ s.params.tickW - 1
    · exact .inr (.inr (.inl ⟨hx, he, hmax, hwrap s.advance hp hmax he⟩))
    · have hlt : s.tickValue.toNat + 1 < 2 ^ s.params.tickW := by
        have := tickValue_lt s hp
        omega
      exact .inr (.inl ⟨hx, he, (tickService_tickValue_toNat s.advance hp he).trans (Nat.mod_eq_of_lt hlt)⟩)
  · exact .inr (.inr (.inr ⟨(issues_iff s _).2 ⟨hx, hissue⟩, hzero⟩))

/-- Settles O40: GIE is no condition of the roll-over. -/
theorem ieSetWritesGie : Obligations.IeSetWritesGie := by
  intro s b
  refine ⟨fun w => encode_ieSet b ▸ decode_eq_instr_iff w _, rfl, rfl, fun hten hroll => ?_, rfl, rfl⟩
  rw [timerClk_roll { s with gie := b } hten ((rollsOver_iff s).1 hroll)]

/-- Settles O43: the roll-over sets the PEND that is 1 already. -/
theorem rollOverWhilePendingIsLost : Obligations.RollOverWhilePendingIsLost := by
  intro s hten hpend hroll
  refine ⟨?_, fun hgie => ?_⟩
  · rw [takeTurn, timerClk_roll s hten ((rollsOver_iff s).1 hroll), ← hpend]
  · rw [takeTurn, tickService_on { s with tcnt := 0 } hpend hgie]
    rfl

end Sys2Proof.Machine

/-! ### The encoder's digits (R170 to R173) -/

namespace Sys2Proof.Machine

theorem digits_le (m : Nat) : (digits m).d3 ≤ 9 ∧ (digits m).d2 ≤ 9 ∧ (digits m).d1 ≤ 9 ∧ (digits m).d0 ≤ 9 := by
  simp only [digits]
  omega

theorem digits_value (m : Nat) (hm : m ≤ 9999) :
    1000 * (digits m).d3 + 100 * (digits m).d2 + 10 * (digits m).d1 + (digits m).d0 = m := by
  simp only [digits]
  omega

theorem digits_mod (m : Nat) : digits (m % 10000) = digits m := by
  simp only [digits, Digits.mk.injEq]
  omega

theorem blank3_digits (m : Nat) (hm : m ≤ 9999) : blank3 (digits m).d3 = true ↔ m < 1000 := by
  have h : blank3 (digits m).d3 = true ↔ m / 1000 % 10 = 0 := decide_eq_true_iff
  rw [h]
  omega

theorem blank2_digits (m : Nat) (hm : m ≤ 9999) : blank2 (digits m).d3 (digits m).d2 = true ↔ m < 100 := by
  have h : blank2 (digits m).d3 (digits m).d2 = true ↔ m / 1000 % 10 = 0 ∧ m / 100 % 10 = 0 :=
    (Bool.and_eq_true _ _).to_iff.trans (and_congr decide_eq_true_iff decide_eq_true_iff)
  rw [h]
  omega

theorem toNat_append_eq_add {n k : Nat} (hi : BitVec n) (lo : BitVec k) :
    (hi ++ lo).toNat = hi.toNat * 2 ^ k + lo.toNat := by
  rw [BitVec.toNat_append, ← Nat.shiftLeft_add_eq_or_of_lt lo.isLt, Nat.shiftLeft_eq]

/-- ENCODE's word as a number, each field at its place (R171). -/
theorem toNat_packDigits (d : Digits) :
    (packDigits d).toNat = 2 ^ 17 * (blank3 d.d3).toNat + 2 ^ 16 * (blank2 d.d3 d.d2).toNat + 2 ^ 12 * (d.d3 % 16)
      + 2 ^ 8 * (d.d2 % 16) + 2 ^ 4 * (d.d1 % 16) + d.d0 % 16 := by
  simp only [packDigits, toNat_append_eq_add, BitVec.toNat_ofNat, BitVec.toNat_ofBool]
  omega

/-- The fields read back from ENCODE's word, for decimal digits (R171). -/
theorem fields_packDigits (d : Digits) (h : d.d3 ≤ 9 ∧ d.d2 ≤ 9 ∧ d.d1 ≤ 9 ∧ d.d0 ≤ 9) :
    ((packDigits d).extractLsb' 12 4).toNat = d.d3 ∧ ((packDigits d).extractLsb' 8 4).toNat = d.d2
      ∧ ((packDigits d).extractLsb' 4 4).toNat = d.d1 ∧ ((packDigits d).extractLsb' 0 4).toNat = d.d0
      ∧ ((packDigits d).getLsbD 17 = true ↔ blank3 d.d3 = true)
      ∧ ((packDigits d).getLsbD 16 = true ↔ blank2 d.d3 d.d2 = true) ∧ (packDigits d).extractLsb' 18 14 = 0 := by
  have hvalue := toNat_packDigits d
  have hb3 := (blank3 d.d3).toNat_le
  have hb2 := (blank2 d.d3 d.d2).toNat_le
  have hzero : (0 : BitVec 14).toNat = 0 := rfl
  rw [← Bool.toNat_eq_one (b := blank3 d.d3), ← Bool.toNat_eq_one (b := blank2 d.d3 d.d2)]
  simp only [BitVec.extractLsb'_toNat, Nat.shiftRight_eq_div_pow, BitVec.getLsbD, ← BitVec.toNat_inj,
    Nat.testBit_eq_decide_div_mod_eq, decide_eq_true_eq, hzero]
  omega

theorem renderBytes_congr (p : Params) (m m' : Word16) (h : digits m.toNat = digits m'.toNat) :
    renderBytes p m = renderBytes p m' := by
  simp only [renderBytes, h]

/-! ### The issue of ENCODE, RENDER and DISP_CLEAR (R171, R173, R180, R182) -/

theorem overRange_of_le (p : Params) (m : Word16) (hm : m.toNat ≤ 9999) : overRange p m = false := by
  simp [overRange, hm]

theorem overRange_of_legacy (p : Params) (m : Word16) (hp : p.overPolicy = .legacy) : overRange p m = false := by
  simp [overRange, hp]

theorem overRange_of_fault (p : Params) (m : Word16) (hm : 9999 < m.toNat) (hp : p.overPolicy = .fault) :
    overRange p m = true := by
  simp [overRange, hm, hp]

theorem exec_encode_inRange (m : Word16) (s : State) (h : overRange s.params m = false) :
    exec (.encode m) s = .next (writeResult (packDigits (digits m.toNat)) s) := by
  simp [exec, execEncode, h]

theorem exec_encode_overRange (m : Word16) (s : State) (h : overRange s.params m = true) :
    exec (.encode m) s = .next (raiseFault .outOfRange (encode (.encode m)) s) := by
  simp [exec, execEncode, h]

theorem exec_render_overRange (m : Word16) (s : State) (h : overRange s.params m = true) :
    exec (.render m) s = .next (raiseFault .outOfRange (encode (.render m)) s) := by
  simp [exec, execRender, h]

/-- A RENDER that is due takes SEQ and runs its first micro-step (R180). -/
theorem exec_render_due (m : Word16) (s : State) (h : overRange s.params m = false) (hlast : s.last ≠ some m)
    (hb : s.busy = false) :
    exec (.render m) s = .next (continueCommand
      (s.withSeq (.render m (renderBytes s.params m) 0 (WriteJob.start display dispReset)))) := by
  simp [exec, execRender, h, hlast, hb, beginCommand, State.withSeq]

theorem exec_dispClear_free (s : State) (hb : s.busy = false) :
    exec .dispClear s = .next (continueCommand
      (s.withSeq (.dispClear clearBytes 0 (WriteJob.start display dispReset)))) := by
  simp [exec, execDispClear, hb, beginCommand, State.withSeq]

theorem exec_dispClear_busy (s : State) (hb : s.busy = true) :
    exec .dispClear s = .next (raiseFault .busOverlap (encode .dispClear) s) := by
  simp [exec, execDispClear, hb]

/-! ### A byte sequence to the display: RENDER and DISP_CLEAR alike (R180, R182) -/

/-- `resume` builds the SEQ of a command that streams `bytes` to the display and leaves `last` in LAST. -/
structure IsStream (resume : Nat → WriteJob → Seq) (last : Option Word16) (bytes : List Byte) : Prop where
  inProgress : ∀ kb j, resume kb j ≠ .idle
  micro : ∀ kb j (s : State), continueCommand (s.withSeq (resume kb j))
    = streamMicro resume last bytes kb j (s.withSeq (resume kb j))

theorem isStream_render (m : Word16) (bytes : List Byte) : IsStream (Seq.render m bytes) (some m) bytes :=
  ⟨nofun, fun _ _ _ => rfl⟩

theorem isStream_dispClear (bytes : List Byte) : IsStream (Seq.dispClear bytes) none bytes :=
  ⟨nofun, fun _ _ _ => rfl⟩

/-- The state with `last` in LAST. -/
def State.withLast (last : Option Word16) (s : State) : State := { s with last := last }

/-- The state after whole writes of `bytes` to the display. -/
def State.displayed (bytes : List Byte) (s : State) : State :=
  { s with
    dout := (bytes.map fun byte => byte.getLsbD 0).getLastD s.dout
    sck := if bytes = [] then s.sck else false
    trace := s.trace ++ bytes.flatMap (writeEvents display) }

theorem displayed_cons (byte : Byte) (bytes : List Byte) (s : State) :
    s.displayed (byte :: bytes) = (s.displayed [byte]).displayed bytes := by
  simp [State.displayed, List.getLast?_cons]

theorem displayed_clearBytes (s : State) :
    s.displayed clearBytes
      = { s with dout := false, sck := false, trace := s.trace ++ writeEvents display 0x76 } := by
  simp [State.displayed, clearBytes, dispReset]

/-- With every line high, asserting a line and releasing it again leaves the lines as they were. -/
theorem set_false_set_true (s : State) (hb : s.busy = false) (k : Nat) : (s.cs.set k false).set k true = s.cs := by
  rw [List.set_set]
  refine List.ext_getElem (by simp) fun i h _ => ?_
  rw [List.getElem_set]
  split
  · exact (lines_high_of_not_busy s hb _ (List.getElem_mem _)).symm
  · rfl

/-- One whole write: the line asserted, the byte's bits sent, the line released (R110). -/
theorem setCs_sent_setCs (byte : Byte) (s : State) (hb : s.busy = false) :
    setCs display true ((setCs display false s).sent (bitsBelow byte 8)) = s.displayed [byte] := by
  simp only [setCs, State.sent, set_false_set_true s hb, State.displayed]
  simp [bitsBelow, writeEvents]

section Stream

variable {resume : Nat → WriteJob → Seq} {last : Option Word16} {bytes : List Byte}

theorem streamMicro_deassert_next (sel i kb : Nat) (byte next : Byte) (s : State) (h : bytes[kb + 1]? = some next) :
    streamMicro resume last bytes kb ⟨sel, byte, i, .deassert⟩ s
      = (setCs sel true s).withSeq (resume (kb + 1) (WriteJob.start display next)) := by
  simp only [streamMicro, writeMicro, h]
  rfl

theorem streamMicro_deassert_last (sel i kb : Nat) (byte : Byte) (s : State) (h : bytes[kb + 1]? = none) :
    streamMicro resume last bytes kb ⟨sel, byte, i, .deassert⟩ s
      = ((setCs sel true s).withLast last).withSeq .idle := by
  simp only [streamMicro, writeMicro, h]
  rfl

/-- HOST's turn in the middle of a byte sequence. -/
theorem run_hostTurns_stream (hstream : IsStream resume last bytes) (k kb : Nat) (j : WriteJob) (s : State)
    (hf : s.fault = 0) :
    runTurns (hostTurns (k + 1)) (s.withSeq (resume kb j))
      = runTurns (hostTurns k) (streamMicro resume last bytes kb j (s.withSeq (resume kb j))) := by
  rw [← hstream.micro]
  exact run_hostTurns_continue k (s.withSeq (resume kb j)) hf (hstream.inProgress kb j)

/-- HOST's three turns of one bit of a byte sequence. -/
theorem run_streamBit (hstream : IsStream resume last bytes) (k kb sel i : Nat) (byte : Byte) (s : State)
    (hf : s.fault = 0) :
    runTurns (hostTurns (k + 3)) (s.withSeq (resume kb ⟨sel, byte, i, .data⟩))
      = runTurns (hostTurns k) (streamMicro resume last bytes kb ⟨sel, byte, i, .clkLow⟩
          ((setClock true (driveData (byte.getLsbD i) s)).withSeq (resume kb ⟨sel, byte, i, .clkLow⟩))) :=
  (run_hostTurns_stream hstream (k + 2) kb _ s hf).trans <|
    (run_hostTurns_stream hstream (k + 1) kb _ (driveData (byte.getLsbD i) s) hf).trans <|
      run_hostTurns_stream hstream k kb _ (setClock true (driveData (byte.getLsbD i) s)) hf

/-- HOST's turns from the micro-step of bit `i` to just before the release of the line. -/
theorem run_streamBits (hstream : IsStream resume last bytes) (k kb sel i : Nat) (byte : Byte) (s : State)
    (hf : s.fault = 0) :
    runTurns (hostTurns (k + 3 * (i + 1))) (s.withSeq (resume kb ⟨sel, byte, i, .data⟩))
      = runTurns (hostTurns k) ((s.sent (bitsBelow byte (i + 1))).withSeq (resume kb ⟨sel, byte, 0, .deassert⟩)) := by
  induction i generalizing s with
  | zero =>
    rw [bitsBelow, sent_cons, bitsBelow, sent_nil]
    exact run_streamBit hstream k kb sel 0 byte s hf
  | succ i ih =>
    rw [bitsBelow, sent_cons, ← ih (clockBitOut (byte.getLsbD (i + 1)) s) hf]
    exact run_streamBit hstream (k + 3 * (i + 1)) kb sel (i + 1) byte s hf

/-- HOST's turns of one byte, to the micro-step that releases the line. -/
theorem run_streamByte (hstream : IsStream resume last bytes) (k kb : Nat) (byte : Byte) (s : State)
    (hf : s.fault = 0) :
    runTurns (hostTurns (k + 26)) (s.withSeq (resume kb (WriteJob.start display byte)))
      = runTurns (hostTurns k) (streamMicro resume last bytes kb ⟨display, byte, 0, .deassert⟩
          (((setCs display false s).sent (bitsBelow byte 8)).withSeq (resume kb ⟨display, byte, 0, .deassert⟩))) :=
  (run_hostTurns_stream hstream (k + 25) kb _ s hf).trans <|
    (run_streamBits hstream (k + 1) kb display 7 byte (setCs display false s) hf).trans <|
      run_hostTurns_stream hstream k kb _ ((setCs display false s).sent (bitsBelow byte 8)) hf

/-- HOST's turns from the start of the byte with index `kb` to the end of the sequence. -/
theorem run_streamFrom (hstream : IsStream resume last bytes) (rest : List Byte) (kb : Nat) (byte : Byte) (s : State)
    (hq : s.seq = .idle) (hf : s.fault = 0) (hb : s.busy = false) (hbytes : bytes.drop kb = byte :: rest) :
    runTurns (hostTurns (26 * rest.length + 26)) (s.withSeq (resume kb (WriteJob.start display byte)))
      = .next ((s.displayed (byte :: rest)).withLast last) := by
  have hrest : bytes.drop (kb + 1) = rest := by rw [← List.tail_drop, hbytes, List.tail_cons]
  have hnext : bytes[kb + 1]? = rest.head? := by rw [← hrest, List.head?_drop]
  cases rest with
  | nil =>
    refine (run_streamByte hstream 0 kb byte s hf).trans ?_
    rw [streamMicro_deassert_last _ _ _ _ _ hnext]
    show Host.Outcome.next
      (((setCs display true ((setCs display false s).sent (bitsBelow byte 8))).withLast last).withSeq .idle) = _
    rw [setCs_sent_setCs byte s hb, withSeq_self ((s.displayed [byte]).withLast last) .idle hq]
  | cons next rest =>
    refine (run_streamByte hstream (26 * rest.length + 26) kb byte s hf).trans ?_
    rw [streamMicro_deassert_next _ _ _ _ _ _ hnext, displayed_cons,
      ← run_streamFrom hstream rest (kb + 1) next (s.displayed [byte]) hq hf hb hrest, ← setCs_sent_setCs byte s hb]
    rfl

/-- HOST's turns after the first micro-step of a byte sequence: its bytes are written and LAST is set (R180, R182). -/
theorem run_stream (hstream : IsStream resume last bytes) (byte : Byte) (rest : List Byte) (s : State)
    (hbytes : bytes = byte :: rest) (hready : s.ready) :
    runTurns (hostTurns (26 * rest.length + 25))
        (continueCommand (s.withSeq (resume 0 (WriteJob.start display byte))))
      = .next ((s.displayed bytes).withLast last) := by
  obtain ⟨hq, hf, hb⟩ := hready
  subst hbytes
  exact (run_hostTurns_continue (26 * rest.length + 25) (s.withSeq (resume 0 (WriteJob.start display byte))) hf
    (hstream.inProgress _ _)).symm.trans (run_streamFrom hstream rest 0 byte s hq hf hb rfl)

end Stream

/-- RENDER's turns after its first micro-step (R180). -/
theorem run_render (m : Word16) (s : State) (hready : s.ready) :
    runTurns (hostTurns 181) (continueCommand
        (s.withSeq (.render m (renderBytes s.params m) 0 (WriteJob.start display dispReset))))
      = .next ((s.displayed (renderBytes s.params m)).withLast (some m)) :=
  run_stream (isStream_render m _) dispReset (renderBytes s.params m).tail s rfl hready

/-- DISP_CLEAR's turns after its first micro-step (R182). -/
theorem run_dispClear (s : State) (hready : s.ready) :
    runTurns (hostTurns 25) (continueCommand
        (s.withSeq (.dispClear clearBytes 0 (WriteJob.start display dispReset))))
      = .next ((s.displayed clearBytes).withLast none) :=
  run_stream (isStream_dispClear _) dispReset [] s rfl hready

/-! ### The encoder statements -/

/-- Settles O49: the word's fields are the four digits of m. -/
theorem encodeReconstructsNumber : Obligations.EncodeReconstructsNumber := by
  intro s m hm
  obtain ⟨h3, h2, h1, h0, hblank3, hblank2, htop⟩ := fields_packDigits (digits m.toNat) (digits_le _)
  obtain ⟨hle3, hle2, hle1, hle0⟩ := digits_le m.toNat
  refine ⟨packDigits (digits m.toNat), exec_encode_inRange m s (overRange_of_le _ m hm), ?_,
    hblank3.trans (blank3_digits _ hm), hblank2.trans (blank2_digits _ hm), ?_⟩
  · rw [h3, h2, h1, h0, digits_value _ hm]
  · rw [h3, h2, h1, h0]
    exact ⟨hle3, hle2, hle1, hle0, htop⟩

/-- Settles O50: the digits of m are those of m mod 10000, and LAST takes the operand itself. -/
theorem numbersAbove9999 : Obligations.NumbersAbove9999 := by
  intro s m hm
  have hdigits : digits m.toNat = digits (BitVec.ofNat 16 (m.toNat % 10000)).toNat := by
    rw [BitVec.toNat_ofNat, Nat.mod_eq_of_lt (by omega), digits_mod]
  refine ⟨fun hfault => ?_, fun hlegacy => ⟨?_, fun hready@⟨_, _, hb⟩ hlast => ?_⟩⟩
  · have hover := overRange_of_fault s.params m hm hfault
    exact ⟨exec_encode_overRange m s hover, exec_render_overRange m s hover⟩
  · rw [exec_encode_inRange m s (overRange_of_legacy _ m hlegacy),
      exec_encode_inRange _ s (overRange_of_legacy _ _ hlegacy), hdigits]
  · rw [← renderBytes_congr s.params m _ hdigits]
    exact ⟨_, _, exec_render_due m s (overRange_of_legacy _ m hlegacy) hlast hb, run_render m s hready, rfl, rfl⟩

/-- Settles O55: DISP_CLEAR is a stream of the one byte 0x76 that leaves `none` in LAST. -/
theorem dispClearInvalidatesCache : Obligations.DispClearInvalidatesCache := by
  intro s
  refine ⟨fun w => decode_eq_instr_iff w .dispClear, fun hready@⟨_, _, hb⟩ => ?_, exec_dispClear_busy s,
    fun m ⟨_, _, hb⟩ hlast hm => ?_⟩
  · refine ⟨_, exec_dispClear_free s hb, rfl, rfl, ?_⟩
    rw [run_dispClear s hready, displayed_clearBytes]
    rfl
  · exact ⟨_, exec_render_due m s hm (by simp [hlast]) hb, rfl⟩

end Sys2Proof.Machine

/-! ### Illegal words (spec 60_exceptions.md R206) -/

namespace Sys2Proof

/-- The decoder rejects exactly the words that select no row (R74). -/
theorem decode_illegal_iff (w : Word24) :
    (∃ why, decode w = .illegal why) ↔ ∀ o, Opcode.selectedBy w o = false := by
  constructor
  · rintro ⟨why, hw⟩ o
    refine Bool.eq_false_iff.2 fun ho => ?_
    rw [decode_of_selectedBy w o ho] at hw
    cases hw
  · intro hnone
    cases hd : decode w with
    | illegal why => exact ⟨why, rfl⟩
    | instr i =>
      obtain ⟨o, ho, -⟩ := selectedBy_of_decode w i hd
      exact absurd ho (Bool.eq_false_iff.1 (hnone o))

/-- Every op but 0 has a row (R73). -/
theorem exists_row_of_op_ne_zero : ∀ x : BitVec 4, x ≠ 0 → ∃ o ∈ Opcode.all, x = opField o.row.pattern := by
  decide

/-- A word selects no row exactly when its op is 0 or it misses the row of its op. -/
theorem selects_no_row_iff (w : Word24) :
    (∀ o, Opcode.selectedBy w o = false) ↔
      opField w = 0 ∨ ∃ o : Opcode, opField w = opField o.row.pattern ∧ (w &&& o.row.mask) ≠ o.row.pattern := by
  constructor
  · intro hnone
    by_cases hop : opField w = 0
    · exact .inl hop
    · obtain ⟨o, -, ho⟩ := exists_row_of_op_ne_zero _ hop
      exact .inr ⟨o, ho, fun hsel => Bool.eq_false_iff.1 (hnone o) ((selectedBy_iff w o).2 hsel)⟩
  · intro hmiss o
    refine Bool.eq_false_iff.2 fun hsel => ?_
    have hop := opField_of_selectedBy w o hsel
    obtain hzero | ⟨o', ho', hne⟩ := hmiss
    · exact opField_pattern_ne_zero o (hop.symm.trans hzero)
    · rw [opField_pattern_injective o' o (ho'.symm.trans hop)] at hne
      exact hne ((selectedBy_iff w o).1 hsel)

end Sys2Proof

/-! ### The fault action and the first fault (spec 60_exceptions.md R201, R207) -/

namespace Sys2Proof.Machine

/-- With HOST free to issue, SEQ is idle already and a fault writes FAULT and FAULT_CMD alone. -/
theorem raiseFault_free (c : FaultCode) (w : Word24) (s : State) (hf : s.fault = 0) (hq : s.seq = .idle) :
    raiseFault c w s = { s with fault := c.code, faultCmd := w } := by
  rw [raiseFault_first c w s hf, ← hq]

theorem raiseFault_standing (c : FaultCode) (w : Word24) (s : State) (hf : s.fault ≠ 0) :
    raiseFault c w s = { s with seq := .idle } := by
  rw [raiseFault, if_neg hf]

theorem issue_illegal (w : Word24) (why : DecodeReject) (s : State) (hw : decode w = .illegal why) :
    issue ⟨.main, w⟩ s = .next (raiseFault .illegalCommand w s) := by
  simp only [issue, hw]

theorem issue_instr (w : Word24) (i : Instr) (s : State) (hw : decode w = .instr i) :
    issue ⟨.main, w⟩ s = exec i s := by
  simp only [issue, hw]

@[simp] theorem continueCommand_fault (s : State) : (continueCommand s).fault = s.fault :=
  (congrArg State.fault (continueCommand_frame s) :)

@[simp] theorem continueCommand_faultCmd (s : State) : (continueCommand s).faultCmd = s.faultCmd :=
  (congrArg State.faultCmd (continueCommand_frame s) :)

theorem timerClk_with_fault (s : State) (c : BitVec 8) :
    timerClk { s with fault := c } = { timerClk s with fault := c } := by
  by_cases hten : s.ten = true
  · by_cases hroll : s.tcnt = s.top - 1
    · rw [timerClk_roll s hten hroll, timerClk_roll { s with fault := c } hten hroll]
    · rw [timerClk_count s hten hroll, timerClk_count { s with fault := c } hten hroll]
  · have hoff : s.ten = false := Bool.eq_false_iff.2 hten
    rw [timerClk_off s hoff, timerClk_off { s with fault := c } hoff]

theorem tickService_with_fault (s : State) (c : BitVec 8) :
    tickService { s with fault := c } = { tickService s with fault := c } := by
  by_cases hon : s.pend = true ∧ s.gie = true
  · obtain ⟨hpend, hgie⟩ := hon
    rw [tickService_on s hpend hgie, tickService_on { s with fault := c } hpend hgie]
    rfl
  · have hoff : s.pend = false ∨ s.gie = false := by simpa only [not_and_or, Bool.not_eq_true] using hon
    rw [tickService_off s hoff, tickService_off { s with fault := c } hoff]

theorem faultApplies_badSelector (i : Instr) (s : State) :
    faultApplies i s .badSelector = (selectorOf i).any fun sel => !selectorExists s.params sel := by
  simp only [faultApplies, selectorExists, ← decide_not, Nat.not_lt]

theorem faultApplies_invalidArgument (i : Instr) (s : State) :
    faultApplies i s .invalidArgument = (bitCountOf i).any fun n => !countFits s.params n := by
  simp only [faultApplies, countFits, ← decide_not, Nat.not_le]

/-- The search of R207's order, one check after another; IllegalCommand is no check of a decoded command. -/
theorem firstFault_eq_ite (i : Instr) (s : State) :
    firstFault i s =
      if faultApplies i s .badSelector then some .badSelector
      else if faultApplies i s .invalidArgument then some .invalidArgument
      else if faultApplies i s .outOfRange then some .outOfRange
      else if faultApplies i s .busOverlap then some .busOverlap
      else none := by
  have hillegal : faultApplies i s .illegalCommand = false := rfl
  simp only [firstFault, faultOrder, List.find?_cons, List.find?_nil, hillegal]
  split_ifs <;> simp only [*]

/-- The same, in the words of the commands' own checks. -/
theorem firstFault_eq (i : Instr) (s : State) :
    firstFault i s =
      if (selectorOf i).any fun sel => !selectorExists s.params sel then some .badSelector
      else if (bitCountOf i).any fun n => !countFits s.params n then some .invalidArgument
      else if (numberOf i).any (overRange s.params) then some .outOfRange
      else if startsTransaction s i && s.busy then some .busOverlap
      else none := by
  rw [firstFault_eq_ite, faultApplies_badSelector, faultApplies_invalidArgument]
  rfl

/-- What a command does once it has passed its checks: its whole effect, or its first micro-step. -/
def commandEffect (i : Instr) (s : State) : State :=
  match i with
  | .busWrite sel byte => beginCommand (.busWrite (WriteJob.start sel.toNat byte)) s
  | .busRead sel n => beginCommand (.busRead (ReadJob.start sel.toNat n.toNat)) s
  | .csAssert sel => setCs sel.toNat false s
  | .csDeassert sel => setCs sel.toNat true s
  | .dataDrive b => driveData b s
  | .clkSet b => setClock b s
  | .dataSample => writeResult (levelWord s.din) (sampleDin s.active s)
  | .tickRead => writeResult s.tickValue s
  | .tickClear => writeTick 0 s
  | .wait => { s with sleep := true, seq := .wait }
  | .ieSet b => { s with gie := b }
  | .timerCfg top => { s with top := top, tcnt := 0, ten := decide (top ≠ 0) }
  | .encode m => writeResult (packDigits (digits m.toNat)) s
  | .render m =>
    if s.last = some m then s
    else beginCommand (.render m (renderBytes s.params m) 0 (WriteJob.start display dispReset)) s
  | .dispClear => beginCommand (.dispClear clearBytes 0 (WriteJob.start display dispReset)) s

/-- A command raises the first fault that applies to it, and has its effect where none does. -/
theorem exec_eq_firstFault (i : Instr) (s : State) :
    exec i s = .next ((firstFault i s).elim (commandEffect i s) fun c => raiseFault c (encode i) s) := by
  rw [firstFault_eq]
  cases i with
  | dataDrive | clkSet | dataSample | tickRead | tickClear | wait | ieSet | timerCfg => rfl
  | busWrite | busRead | csAssert | csDeassert | encode | dispClear =>
    simp only [exec, execBusWrite, execBusRead, execCsAssert, execCsDeassert, execEncode, execDispClear, selectorOf,
      bitCountOf, numberOf, startsTransaction, Option.any_some, Option.any_none, Bool.true_and, Bool.false_and,
      Bool.false_eq_true, if_false]
    split_ifs <;> rfl
  | render m =>
    simp only [exec, execRender, selectorOf, bitCountOf, numberOf, startsTransaction, commandEffect, Option.any_some,
      Option.any_none, Bool.false_eq_true, if_false]
    by_cases hlast : s.last = some m
    · simp only [hlast, ne_eq, not_true, decide_false, Bool.false_and, Bool.false_eq_true, if_true, if_false]
      split_ifs <;> rfl
    · simp only [hlast, ne_eq, not_false_eq_true, decide_true, Bool.true_and, if_false]
      split_ifs <;> rfl

theorem exec_of_firstFault_some (i : Instr) (s : State) (c : FaultCode) (h : firstFault i s = some c) :
    exec i s = .next (raiseFault c (encode i) s) := by
  rw [exec_eq_firstFault, h, Option.elim_some]

theorem exec_of_firstFault_none (i : Instr) (s : State) (h : firstFault i s = none) :
    exec i s = .next (commandEffect i s) := by
  rw [exec_eq_firstFault, h, Option.elim_none]

/-- A command's effect leaves the fault registers alone. -/
theorem commandEffect_fault (i : Instr) (s : State) :
    (commandEffect i s).fault = s.fault ∧ (commandEffect i s).faultCmd = s.faultCmd := by
  cases i with
  | busWrite | busRead | dispClear => exact ⟨continueCommand_fault _, continueCommand_faultCmd _⟩
  | render m =>
    rw [commandEffect]
    split_ifs
    · exact ⟨rfl, rfl⟩
    · exact ⟨continueCommand_fault _, continueCommand_faultCmd _⟩
  | _ => exact ⟨rfl, rfl⟩

/-- A command issued by a free HOST that ends with a fault has changed FAULT and FAULT_CMD alone. -/
theorem exec_faulting_frame (i : Instr) (s t : State) (hf : s.fault = 0) (hq : s.seq = .idle)
    (h : exec i s = .next t) (ht : t.fault ≠ 0) : t = { s with fault := t.fault, faultCmd := encode i } := by
  cases hfirst : firstFault i s with
  | none =>
    rw [exec_of_firstFault_none i s hfirst] at h
    cases h
    exact absurd ((commandEffect_fault i s).1.trans hf) ht
  | some c =>
    rw [exec_of_firstFault_some i s c hfirst, raiseFault_free c _ s hf hq] at h
    cases h
    rfl

/-! ### The exception statements -/

/-- Settles O21: a command raises its first fault, or has an effect that leaves the fault registers alone. -/
theorem firstApplicableFaultIsRaised : Obligations.FirstApplicableFaultIsRaised := by
  intro i s
  exact ⟨exec_of_firstFault_some i s, fun hnone =>
    ⟨_, exec_of_firstFault_none i s hnone, commandEffect_fault i s⟩⟩

/-- Settles O4: the rejected words select no row, and with SEQ idle the fault action leaves SEQ as it is. -/
theorem illegalWordFaults : Obligations.IllegalWordFaults := by
  refine ⟨fun w => (decode_illegal_iff w).trans (selects_no_row_iff w), fun w why s hw hf hq => ?_⟩
  rw [issue_illegal w why s hw, raiseFault_free _ w s hf hq]
  rfl

/-- Settles O20: a command either raises its first fault or keeps the fault registers, so one that faults has no other
effect. -/
theorem issueAndFaultAction : Obligations.IssueAndFaultAction := by
  refine ⟨fun s hf => ⟨hostTurn_faulted s hf, fun ⟨_, _, hf0⟩ => hf hf0⟩, ?_,
    fun c w s => ⟨raiseFault_first c w s, raiseFault_standing c w s⟩, exec_faulting_frame,
    fun s => ⟨continueCommand_fault s, continueCommand_faultCmd s⟩,
    fun s c => ⟨timerClk_with_fault s c, tickService_with_fault s c⟩⟩
  rintro s ⟨context, w⟩ rest hf hq hp rfl
  rw [hostTurn_issue s _ rest hf hq hp]
  exact ⟨fun why hw => issue_illegal w why _ hw, fun i hw => issue_instr w i _ hw⟩

end Sys2Proof.Machine

/-! ### Reset and its hazards (spec 70_reset_and_hazards.md R240, R254, R257) -/

namespace Sys2Proof.Machine

/-- Settles O15: RESULT holds no value for its read to show, and TICK's draw is cut to TICK_W bits. -/
theorem resetValues : Obligations.ResetValues := by
  refine ⟨fun p k hp => ?_, rfl⟩
  have hread : readPort .result (State.powerUp p k) = .fault := readPort_noResult _ rfl
  have htick : (State.powerUp p k).tick.toNat < 2 ^ p.tickW := truncTo_lt _ (tickW_le_of_wf hp) _
  exact ⟨rfl, rfl, rfl, hread, rfl, rfl, rfl, rfl, rfl, rfl, rfl, rfl, htick, rfl, rfl, rfl⟩

/-! ### A WAIT without a live tick (R254) -/

/-- With SLEEP = 1 a WAIT holds HOST, whether or not a fault stands (R142). -/
theorem hostTurn_asleep (s : State) (hq : s.seq = .wait) (hsleep : s.sleep = true) : hostTurn s = .next s := by
  by_cases hf : s.fault = 0
  · have hheld : continueCommand s = s := by simp only [continueCommand, hq, hsleep, if_true]
    rw [hostTurn_continue s hf (hq ▸ nofun), hheld]
  · exact hostTurn_faulted s hf

/-- No service can come while GIE stays 0, nor while no roll-over can set PEND (R254). -/
def State.NoLiveTick (s : State) : Prop := s.gie = false ∨ s.ten = false ∧ s.pend = false

theorem tickService_noLiveTick (s : State) (h : s.NoLiveTick) : tickService s = s :=
  tickService_off s (h.symm.imp_left And.right)

theorem timerClk_noLiveTick (s : State) (h : s.NoLiveTick) : (timerClk s).NoLiveTick := by
  obtain hgie | ⟨hten, hpend⟩ := h
  · rw [timerClk_frame]
    exact .inl hgie
  · rw [timerClk_off s hten]
    exact .inr ⟨hten, hpend⟩

/-- In a WAIT without a live tick every turn but a power-on leaves the state as it is, or is TIMER's. -/
theorem takeTurn_hung (x : Turn) (hx : x ≠ .powerOn) (s : State) (hq : s.seq = .wait) (hsleep : s.sleep = true)
    (hdead : s.NoLiveTick) : takeTurn x s = .next s ∨ takeTurn x s = .next (timerClk s) := by
  cases x with
  | host => exact .inl (hostTurn_asleep s hq hsleep)
  | timerClk => exact .inr rfl
  | tickService => exact .inl (congrArg _ (tickService_noLiveTick s hdead))
  | readPort p => exact .inl rfl
  | powerOn => exact absurd rfl hx

/-- Settles O39, by induction on the turns: only TIMER's change the state, and they enable no service. -/
theorem waitWithoutLiveTickHangs : Obligations.WaitWithoutLiveTickHangs := by
  intro ts
  induction ts with
  | nil => exact fun s hq hsleep _ _ => ⟨s, rfl, hq, hsleep, rfl, rfl⟩
  | cons x ts ih =>
    intro s hq hsleep hdead hts
    obtain ⟨hx, hts⟩ := List.forall_mem_cons.1 hts
    obtain hnext | hnext := takeTurn_hung x hx s hq hsleep hdead <;> simp only [runTurns, hnext]
    · exact ih s hq hsleep hdead hts
    · have hdead' := timerClk_noLiveTick s hdead
      rw [timerClk_frame] at hdead' ⊢
      exact ih _ hq hsleep hdead' hts

/-! ### A host write to the display and RENDER's cache (R257) -/

/-- Whole writes to the display, and a new LAST, leave HOST ready. -/
theorem ready_displayed_withLast (bytes : List Byte) (last : Option Word16) (s : State) (h : s.ready) :
    ((s.displayed bytes).withLast last).ready := h

/-- A ready HOST whose program is used up has finished (R233). -/
theorem finished_of_ready (s : State) (h : s.ready) : (s.withProgram []).finished := by
  obtain ⟨hq, hf, _⟩ := h
  exact ⟨rfl, hq, hf⟩

/-- A whole command of a program: its issue and the micro-steps after it, and then the rest of HOST's turns. -/
theorem run_hostTurns_command (i : Instr) (is : List Instr) (n k : Nat) (s t u : State) (hf : s.fault = 0)
    (hq : s.seq = .idle) (he : exec i (s.withProgram is) = .next t) (hrun : runTurns (hostTurns n) t = .next u) :
    runTurns (hostTurns (n + k + 1)) (s.withProgram (i :: is)) = runTurns (hostTurns k) u :=
  (run_hostTurns_issue i is (n + k) s t hf hq he).trans (run_hostTurns_add n k t u hrun)

/-- A number RENDER's cache holds is sent nowhere (R180). -/
theorem exec_render_cached (m : Word16) (s : State) (h : overRange s.params m = false) (hlast : s.last = some m) :
    exec (.render m) s = .next s := by
  simp [exec, execRender, h, hlast]

/-- The host's own write to the display is one whole write, and leaves LAST as it is. -/
theorem run_busWrite_display (byte : Byte) (is : List Instr) (k : Nat) (s : State) (hready : s.ready)
    (hsel : display < s.params.nsel) :
    runTurns (hostTurns (25 + k + 1)) (s.withProgram (.busWrite 1 byte :: is))
      = runTurns (hostTurns k) ((s.displayed [byte]).withProgram is) := by
  obtain ⟨hq, hf, hb⟩ := hready
  have hrun := run_busWrite display byte (setCs display false (s.withProgram is)) hf hq
  rw [setCs_sent_setCs byte (s.withProgram is) hb] at hrun
  exact run_hostTurns_command _ is 25 k s _ _ hf hq (exec_busWrite_free 1 byte (s.withProgram is) hsel hb) hrun

/-- DISP_CLEAR is one whole write too, and empties LAST (R182). -/
theorem run_dispClear_command (is : List Instr) (k : Nat) (s : State) (hready : s.ready) :
    runTurns (hostTurns (25 + k + 1)) (s.withProgram (.dispClear :: is))
      = runTurns (hostTurns k) (((s.displayed clearBytes).withLast none).withProgram is) := by
  have ⟨hq, hf, hb⟩ := hready
  exact run_hostTurns_command _ is 25 k s _ _ hf hq (exec_dispClear_free (s.withProgram is) hb)
    (run_dispClear (s.withProgram is) hready)

/-- A RENDER that is due, as the last command of a program. -/
theorem run_render_last (m : Word16) (s : State) (hready : s.ready) (hm : overRange s.params m = false)
    (hlast : s.last ≠ some m) :
    runTurns (hostTurns 182) (s.withProgram [.render m])
      = .next (((s.displayed (renderBytes s.params m)).withLast (some m)).withProgram []) := by
  have ⟨hq, hf, hb⟩ := hready
  exact (run_hostTurns_issue _ [] 181 s _ hf hq (exec_render_due m (s.withProgram []) hm hlast hb)).trans
    (run_render m (s.withProgram []) hready)

/-- A RENDER of the number LAST holds, as the last command of a program. -/
theorem run_render_cached_last (m : Word16) (s : State) (hready : s.ready) (hm : overRange s.params m = false)
    (hlast : s.last = some m) :
    runTurns (hostTurns 1) (s.withProgram [.render m]) = .next (s.withProgram []) := by
  have ⟨hq, hf, _⟩ := hready
  exact run_hostTurns_issue _ [] 0 s _ hf hq (exec_render_cached m (s.withProgram []) hm hlast)

/-- Settles O56: the host's write keeps LAST, so the RENDER is suppressed; DISP_CLEAR empties LAST, so it is due. -/
theorem hostWriteBypassesCache : Obligations.HostWriteBypassesCache := by
  intro s m byte hready hsel hm hlast
  constructor
  · have hrun := (run_busWrite_display byte [.render m] 1 s hready hsel).trans
      (run_render_cached_last m (s.displayed [byte]) hready hm hlast)
    refine ⟨_, hrun, finished_of_ready _ hready, ?_, hlast⟩
    simp [State.withProgram, State.displayed]
  · have hcleared := ready_displayed_withLast clearBytes none s hready
    have hrun := (run_dispClear_command [.render m] 182 s hready).trans (run_render_last m _ hcleared hm nofun)
    refine ⟨_, hrun, finished_of_ready _ (ready_displayed_withLast _ _ _ hcleared), rfl, ?_⟩
    rw [displayed_clearBytes]
    rfl

end Sys2Proof.Machine

/-! ### Encoding: each command has one word, and each line the word of its command (spec 30_encoding.md R70 to R76) -/

namespace Sys2Proof

/-- Settles O1: a command's word selects the command's row, whose operands read the command back. -/
theorem decodeOfEncode : Obligations.DecodeOfEncode := fun i => (decode_eq_instr_iff _ i).2 rfl

/-- Settles O2: the bits of a decoded word that are no operand are fixed by the row's mask. -/
theorem encodeOfDecode : Obligations.EncodeOfDecode := fun w i h => ((decode_eq_instr_iff w i).1 h).symm

/-- Settles O3: a selected row has the word's op, and the op tells the rows apart. -/
theorem wordSelectsUniqueRow : Obligations.WordSelectsUniqueRow := by
  refine ⟨fun w o o' ho ho' => ?_, fun w o ho => ?_, fun w i hw => ?_⟩
  · exact opField_pattern_injective o o' ((opField_of_selectedBy w o ho).symm.trans (opField_of_selectedBy w o' ho'))
  · exact ⟨_, decode_of_selectedBy w o ho, opcode_operands w o⟩
  · obtain ⟨o, ho, rfl⟩ := selectedBy_of_decode w i hw
    rwa [opcode_operands]

/-- Settles O5: each word is the encoder's word for its command. -/
theorem wordsOfTheSpecDecode : Obligations.WordsOfTheSpecDecode := by
  simp only [Obligations.WordsOfTheSpecDecode, decode_eq_instr_iff]
  decide

/-! ### Assembler lines (R76) -/

theorem selBound_le (o : Opcode) : o.selBound ≤ 16 := by
  cases o <;> decide

theorem operandBound_le (o : Opcode) : o.operandBound ≤ 65536 := by
  cases o <;> decide

/-- A row's match holds its op and nothing else (R73). -/
theorem pattern_eq_commandWord (o : Opcode) : o.row.pattern = commandWord (opField o.row.pattern) 0 0 := by
  cases o <;> decide

theorem opField_commandWord (op sel : BitVec 4) (v : Word16) : opField (commandWord op sel v) = op := by
  ext i hi
  simp [opField, getLsbD_commandWord, show ¬20 + i < 16 by omega, hi]

/-- The parts of a line, put together bit by bit, are a command word with the line's numbers in its fields. -/
theorem lineBits_eq_commandWord (op : BitVec 4) (sel operand : Nat) (hsel : sel < 16) (hv : operand < 65536) :
    commandWord op 0 0 ||| (BitVec.ofNat 24 sel <<< 16) ||| BitVec.ofNat 24 operand
      = commandWord op (BitVec.ofNat 4 sel) (BitVec.ofNat 16 operand) := by
  have hselBit : ∀ i, 4 ≤ i → sel.testBit i = false := fun i hi =>
    Nat.testBit_lt_two_pow (hsel.trans_le (Nat.pow_le_pow_right (n := 2) (by decide) hi))
  have hvBit : ∀ i, 16 ≤ i → operand.testBit i = false := fun i hi =>
    Nat.testBit_lt_two_pow (hv.trans_le (Nat.pow_le_pow_right (n := 2) (by decide) hi))
  refine BitVec.eq_of_getLsbD_eq fun i hi => ?_
  simp only [BitVec.getLsbD_or, BitVec.getLsbD_shiftLeft, getLsbD_commandWord, BitVec.getLsbD_ofNat, hi]
  by_cases h16 : i < 16
  · simp [h16]
  · by_cases h20 : i < 20
    · simp [h16, h20, hvBit i (by omega), show i - 16 < 24 by omega, show i - 16 < 4 by omega]
    · simp [h16, h20, hvBit i (by omega), hselBit (i - 16) (by omega)]

/-- A one-bit operand below 2 is one of the two. -/
theorem bitOperand_eq_ofNat (v : Nat) (hv : v < 2) : bitOperand (decide (v = 1)) = BitVec.ofNat 16 v := by
  interval_cases v <;> rfl

/-- The command of a line's mnemonic with the line's numbers as its operands. -/
def Opcode.command (o : Opcode) (sel operand : Nat) : Instr :=
  match o with
  | .busWrite => .busWrite (BitVec.ofNat 4 sel) (BitVec.ofNat 8 operand)
  | .busRead => .busRead (BitVec.ofNat 4 sel) (BitVec.ofNat 16 operand)
  | .csAssert => .csAssert (BitVec.ofNat 4 sel)
  | .csDeassert => .csDeassert (BitVec.ofNat 4 sel)
  | .dataDrive => .dataDrive (decide (operand = 1))
  | .clkSet => .clkSet (decide (operand = 1))
  | .dataSample => .dataSample
  | .tickRead => .tickRead
  | .tickClear => .tickClear
  | .wait => .wait
  | .ieSet => .ieSet (decide (operand = 1))
  | .timerCfg => .timerCfg (BitVec.ofNat 16 operand)
  | .encode => .encode (BitVec.ofNat 16 operand)
  | .render => .render (BitVec.ofNat 16 operand)
  | .dispClear => .dispClear

theorem opcode_command (o : Opcode) (sel operand : Nat) : (o.command sel operand).opcode = o := by
  cases o <;> rfl

/-- Numbers that fit a mnemonic's fields (R71, R72) stand in the fields of its command's word. -/
theorem encode_command (o : Opcode) (sel operand : Nat) (hsel : sel < o.selBound) (hv : operand < o.operandBound) :
    ∃ op, encode (o.command sel operand) = commandWord op (BitVec.ofNat 4 sel) (BitVec.ofNat 16 operand) := by
  cases o with
  | busWrite =>
    have hbyte : (BitVec.ofNat 8 operand).setWidth 16 = BitVec.ofNat 16 operand := by
      have : operand < 256 := hv
      bv_omega
    exact ⟨_, congrArg (commandWord _ _) hbyte⟩
  | busRead => exact ⟨_, rfl⟩
  | csAssert | csDeassert =>
    obtain rfl : operand = 0 := Nat.lt_one_iff.1 hv
    exact ⟨_, rfl⟩
  | dataDrive | clkSet | ieSet =>
    obtain rfl : sel = 0 := Nat.lt_one_iff.1 hsel
    exact ⟨_, congrArg (commandWord _ _) (bitOperand_eq_ofNat operand hv)⟩
  | timerCfg | encode | render =>
    obtain rfl : sel = 0 := Nat.lt_one_iff.1 hsel
    exact ⟨_, rfl⟩
  | dataSample | tickRead | tickClear | wait | dispClear =>
    obtain rfl : sel = 0 := Nat.lt_one_iff.1 hsel
    obtain rfl : operand = 0 := Nat.lt_one_iff.1 hv
    exact ⟨_, rfl⟩

/-- The word of a line whose numbers fit is the word of its command. -/
theorem word_of_fits (l : AsmLine) (hsel : l.sel < l.op.selBound) (hv : l.operand < l.op.operandBound) :
    l.word = some (encode (l.op.command l.sel l.operand)) := by
  have hl : l.wellFormed = true := by simp [AsmLine.wellFormed, hsel, hv]
  obtain ⟨op, hop⟩ := encode_command l.op l.sel l.operand hsel hv
  have hfield := opField_of_selectedBy _ _ (selectedBy_encode (l.op.command l.sel l.operand))
  rw [hop, opField_commandWord, opcode_command] at hfield
  rw [AsmLine.word, if_pos hl, pattern_eq_commandWord, lineBits_eq_commandWord _ _ _
    (hsel.trans_le (selBound_le l.op)) (hv.trans_le (operandBound_le l.op)), hop, hfield]

/-- Settles O6: the line's word is its command's, with the line's numbers in its fields. -/
theorem assemblerLineSpellsItsCommand : Obligations.AssemblerLineSpellsItsCommand := by
  refine ⟨fun l hl => ?_, fun l hl => by rw [AsmLine.word, hl]; rfl⟩
  obtain ⟨hsel, hv⟩ : l.sel < l.op.selBound ∧ l.operand < l.op.operandBound := by
    simpa [AsmLine.wellFormed] using hl
  obtain ⟨op, hop⟩ := encode_command l.op l.sel l.operand hsel hv
  refine ⟨_, _, word_of_fits l hsel hv, (decode_eq_instr_iff _ _).2 rfl, opcode_command .., ?_, ?_⟩
  · rw [hop, selField_commandWord, BitVec.toNat_ofNat, Nat.mod_eq_of_lt (hsel.trans_le (selBound_le l.op))]
  · rw [hop, operandField_commandWord, BitVec.toNat_ofNat, Nat.mod_eq_of_lt (hv.trans_le (operandBound_le l.op))]

end Sys2Proof

/-! ### What HOST's turn can do, once (spec 60_exceptions.md R201) -/

namespace Sys2Proof.Machine

theorem canIssue_iff (s : State) : s.canIssue = true ↔ s.seq = .idle ∧ s.fault = 0 := by
  simp [State.canIssue]

/-- HOST's turn has no effect, raises a fault, issues a command to which no fault applies, or runs one micro-step. -/
theorem hostTurn_next_cases (s t : State) (h : hostTurn s = .next t) :
    t = s
    ∨ (∃ c w, s.canIssue = true
        ∧ t = { s with program := s.program.tail, fault := FaultCode.code c, faultCmd := w })
    ∨ (∃ i, s.aboutToIssue i = true ∧ firstFault i s = none
        ∧ t = commandEffect i { s with program := s.program.tail })
    ∨ (s.fault = 0 ∧ s.seq ≠ .idle ∧ t = continueCommand s) := by
  obtain ⟨-, hnext⟩ | ⟨-, -, -, hnext⟩ | ⟨⟨context, w⟩, rest, hf, hq, hp, hnext⟩ | ⟨hf, hq, hnext⟩ :=
    hostTurn_cases s <;> rw [hnext] at h
  · cases h
    exact .inl rfl
  · cases h
    exact .inl rfl
  · have hfree := (canIssue_iff s).2 ⟨hq, hf⟩
    have htail : s.program.tail = rest := congrArg List.tail hp
    rw [htail]
    cases context with
    | interrupt => cases h
    | main =>
      cases hw : decode w with
      | illegal why =>
        rw [issue_illegal w why _ hw, raiseFault_free .illegalCommand w { s with program := rest } hf hq] at h
        cases h
        exact .inr (.inl ⟨_, w, hfree, rfl⟩)
      | instr i =>
        rw [issue_instr w i _ hw] at h
        cases hfirst : firstFault i s with
        | some c =>
          rw [exec_of_firstFault_some i { s with program := rest } c hfirst,
            raiseFault_free c _ { s with program := rest } hf hq] at h
          cases h
          exact .inr (.inl ⟨c, _, hfree, rfl⟩)
        | none =>
          rw [exec_of_firstFault_none i { s with program := rest } hfirst] at h
          cases h
          exact .inr (.inr (.inl ⟨i, (aboutToIssue_iff i s).2 ⟨hfree, _, rest, hp, rfl, hw⟩, hfirst, rfl⟩))
  · cases h
    exact .inr (.inr (.inr ⟨hf, hq, rfl⟩))

theorem canIssue_of_aboutToIssue {i : Instr} {s : State} (h : s.aboutToIssue i = true) : s.canIssue = true :=
  ((aboutToIssue_iff i s).1 h).1

/-- Where no fault applies to a command, each of its checks is passed. -/
theorem firstFault_eq_none_iff (i : Instr) (s : State) :
    firstFault i s = none ↔
      ((selectorOf i).any fun sel => !selectorExists s.params sel) = false
      ∧ ((bitCountOf i).any fun n => !countFits s.params n) = false
      ∧ (numberOf i).any (overRange s.params) = false
      ∧ (startsTransaction s i && s.busy) = false := by
  rw [firstFault_eq]
  split_ifs <;> simp_all

/-! ### The micro-steps, an equation per command in progress (R29) -/

/-- A write ends with the release of its line. -/
theorem writeMicro_eq_none_iff (j : WriteJob) (s : State) : (writeMicro j s).2 = none ↔ j.ph = .deassert := by
  obtain ⟨sel, sr, i, ph⟩ := j
  cases ph with
  | clkLow => cases i <;> simp [writeMicro]
  | _ => simp [writeMicro]

theorem continueCommand_idle (s : State) (h : s.seq = .idle) : continueCommand s = s := by
  simp only [continueCommand, h]

theorem continueCommand_busWrite (s : State) (j : WriteJob) (h : s.seq = .busWrite j) :
    continueCommand s = (writeMicro j s).1.withSeq ((writeMicro j s).2.elim .idle .busWrite) := by
  simp only [continueCommand, h]
  rcases writeMicro j s with ⟨s', _ | j'⟩ <;> rfl

theorem continueCommand_busRead (s : State) (j : ReadJob) (h : s.seq = .busRead j) :
    continueCommand s = (readMicro j s).1.withSeq ((readMicro j s).2.elim .idle .busRead) := by
  simp only [continueCommand, h]
  rcases readMicro j s with ⟨s', _ | j'⟩ <;> rfl

theorem continueCommand_wait (s : State) (h : s.seq = .wait) :
    continueCommand s = if s.sleep then s else s.withSeq .idle := by
  simp only [continueCommand, h]
  rfl

theorem continueCommand_render (s : State) (m : Word16) (bytes : List Byte) (kb : Nat) (j : WriteJob)
    (h : s.seq = .render m bytes kb j) :
    continueCommand s = streamMicro (.render m bytes) (some m) bytes kb j s := by
  simp only [continueCommand, h]

theorem continueCommand_dispClear (s : State) (bytes : List Byte) (kb : Nat) (j : WriteJob)
    (h : s.seq = .dispClear bytes kb j) :
    continueCommand s = streamMicro (.dispClear bytes) none bytes kb j s := by
  simp only [continueCommand, h]

/-- A byte sequence goes on with its byte, or begins the next one, or writes LAST and ends. -/
theorem streamMicro_eq (resume : Nat → WriteJob → Seq) (last : Option Word16) (bytes : List Byte) (kb : Nat)
    (j : WriteJob) (s : State) :
    streamMicro resume last bytes kb j s =
      (writeMicro j s).2.elim
        (bytes[kb + 1]?.elim (((writeMicro j s).1.withLast last).withSeq .idle)
          fun b => (writeMicro j s).1.withSeq (resume (kb + 1) (WriteJob.start display b)))
        fun j' => (writeMicro j s).1.withSeq (resume kb j') := by
  unfold streamMicro
  rcases writeMicro j s with ⟨s', _ | j'⟩
  · cases bytes[kb + 1]? <;> rfl
  · rfl

/-- The same, as the three cases of one micro-step. -/
theorem streamMicro_cases (resume : Nat → WriteJob → Seq) (last : Option Word16) (bytes : List Byte) (kb : Nat)
    (j : WriteJob) (s : State) :
    (∃ j', (writeMicro j s).2 = some j'
        ∧ streamMicro resume last bytes kb j s = (writeMicro j s).1.withSeq (resume kb j'))
    ∨ (∃ b, (writeMicro j s).2 = none ∧ bytes[kb + 1]? = some b
        ∧ streamMicro resume last bytes kb j s
          = (writeMicro j s).1.withSeq (resume (kb + 1) (WriteJob.start display b)))
    ∨ ((writeMicro j s).2 = none ∧ bytes[kb + 1]? = none
        ∧ streamMicro resume last bytes kb j s = ((writeMicro j s).1.withLast last).withSeq .idle) := by
  rw [streamMicro_eq]
  cases (writeMicro j s).2 with
  | some j' => exact .inl ⟨j', rfl, rfl⟩
  | none =>
    cases bytes[kb + 1]? with
    | none => exact .inr (.inr ⟨rfl, rfl, rfl⟩)
    | some b => exact .inr (.inl ⟨b, rfl, rfl, rfl⟩)

theorem writeMicro_last (j : WriteJob) (s : State) : (writeMicro j s).1.last = s.last :=
  (congrArg State.last (writeMicro_frame j s) :)

theorem readMicro_last (j : ReadJob) (s : State) : (readMicro j s).1.last = s.last :=
  (congrArg State.last (readMicro_frame j s) :)

/-- A byte sequence writes LAST in its last micro-step alone (R32). -/
theorem streamMicro_last_cases (resume : Nat → WriteJob → Seq) (last : Option Word16) (bytes : List Byte) (kb : Nat)
    (j : WriteJob) (s : State) :
    (streamMicro resume last bytes kb j s).last = s.last
    ∨ (j.ph = .deassert ∧ bytes.length ≤ kb + 1 ∧ (streamMicro resume last bytes kb j s).last = last
        ∧ (streamMicro resume last bytes kb j s).seq = .idle) := by
  obtain ⟨j', -, hs⟩ | ⟨b, -, -, hs⟩ | ⟨hend, hbytes, hs⟩ := streamMicro_cases resume last bytes kb j s <;> rw [hs]
  · exact .inl (writeMicro_last j s)
  · exact .inl (writeMicro_last j s)
  · exact .inr ⟨(writeMicro_eq_none_iff j s).1 hend, List.getElem?_eq_none_iff.1 hbytes, rfl, rfl⟩

/-- A micro-step that writes LAST ends a RENDER or a DISP_CLEAR (R22, R32). -/
theorem continueCommand_last_cases (s : State) :
    (continueCommand s).last = s.last
    ∨ (∃ m bytes kb j, s.seq = .render m bytes kb j ∧ j.ph = .deassert ∧ bytes.length ≤ kb + 1
        ∧ (continueCommand s).last = some m ∧ (continueCommand s).seq = .idle)
    ∨ (∃ bytes kb j, s.seq = .dispClear bytes kb j ∧ j.ph = .deassert ∧ bytes.length ≤ kb + 1
        ∧ (continueCommand s).last = none ∧ (continueCommand s).seq = .idle) := by
  cases hq : s.seq with
  | idle => exact .inl (by rw [continueCommand_idle s hq])
  | busWrite j => exact .inl (by rw [continueCommand_busWrite s j hq]; exact writeMicro_last j s)
  | busRead j => exact .inl (by rw [continueCommand_busRead s j hq]; exact readMicro_last j s)
  | wait => exact .inl (by rw [continueCommand_wait s hq]; split <;> rfl)
  | render m bytes kb j =>
    rw [continueCommand_render s m bytes kb j hq]
    exact (streamMicro_last_cases ..).imp_right fun h => .inl ⟨m, bytes, kb, j, rfl, h⟩
  | dispClear bytes kb j =>
    rw [continueCommand_dispClear s bytes kb j hq]
    exact (streamMicro_last_cases ..).imp_right fun h => .inr ⟨bytes, kb, j, rfl, h⟩

theorem writeMicro_result (j : WriteJob) (s : State) :
    (writeMicro j s).1.result = s.result ∧ (writeMicro j s).1.resultValid = s.resultValid :=
  ⟨(congrArg State.result (writeMicro_frame j s) :), (congrArg State.resultValid (writeMicro_frame j s) :)⟩

theorem streamMicro_result (resume : Nat → WriteJob → Seq) (last : Option Word16) (bytes : List Byte) (kb : Nat)
    (j : WriteJob) (s : State) :
    (streamMicro resume last bytes kb j s).result = s.result
      ∧ (streamMicro resume last bytes kb j s).resultValid = s.resultValid :=
  ⟨(congrArg State.result (streamMicro_frame resume last bytes kb j s) :),
    (congrArg State.resultValid (streamMicro_frame resume last bytes kb j s) :)⟩

theorem readMicro_result (j : ReadJob) (s : State) (hj : j.ph ≠ .deassert) :
    (readMicro j s).1.result = s.result ∧ (readMicro j s).1.resultValid = s.resultValid := by
  obtain ⟨sel, n, i, acc, ph⟩ := j
  cases ph with
  | deassert => exact absurd rfl hj
  | _ => exact ⟨rfl, rfl⟩

/-- A micro-step that writes RESULT ends a BUS_READ (R22). -/
theorem continueCommand_result_cases (s : State) :
    ((continueCommand s).result = s.result ∧ (continueCommand s).resultValid = s.resultValid)
    ∨ ∃ j, s.seq = .busRead j ∧ j.ph = .deassert := by
  cases hq : s.seq with
  | idle => exact .inl (by rw [continueCommand_idle s hq]; exact ⟨rfl, rfl⟩)
  | busWrite j => exact .inl (by rw [continueCommand_busWrite s j hq]; exact writeMicro_result j s)
  | busRead j =>
    by_cases hj : j.ph = .deassert
    · exact .inr ⟨j, rfl, hj⟩
    · exact .inl (by rw [continueCommand_busRead s j hq]; exact readMicro_result j s hj)
  | wait => exact .inl (by rw [continueCommand_wait s hq]; split <;> exact ⟨rfl, rfl⟩)
  | render m bytes kb j => exact .inl (by rw [continueCommand_render s m bytes kb j hq]; exact streamMicro_result ..)
  | dispClear bytes kb j => exact .inl (by rw [continueCommand_dispClear s bytes kb j hq]; exact streamMicro_result ..)

end Sys2Proof.Machine

/-! ### The invariant: what it speaks of (spec 10_state.md, 60_exceptions.md R201) -/

namespace Sys2Proof.Machine

/-- A state without what the invariant does not speak of, here set to fixed values. -/
def State.invView (s : State) : State :=
  { s with
    result := 0, resultValid := false, gie := false, pend := false, dout := false, trace := [], program := []
    schedule := [], rounds := 0, dinInput := [], draws := 0, powerOns := 0 }

theorem WriteJob.Ok.of_lines {s t : State} {j : WriteJob} (h : j.Ok s) (hp : t.params = s.params) (hcs : t.cs = s.cs)
    (hsck : t.sck = s.sck) : j.Ok t := by
  obtain ⟨hsel, hbit, hbefore, hduring, hclock⟩ := h
  exact ⟨by rwa [hp], hbit, by rwa [hp, hcs], by rwa [hp, hcs], by rwa [hsck]⟩

theorem ReadJob.Ok.of_lines {s t : State} {j : ReadJob} (h : j.Ok s) (hp : t.params = s.params) (hcs : t.cs = s.cs)
    (hsck : t.sck = s.sck) : j.Ok t := by
  obtain ⟨hsel, hcount, hbit, hacc, hbefore, hduring, hclock⟩ := h
  exact ⟨by rwa [hp], by rwa [hp], hbit, by rwa [hp], by rwa [hp, hcs], by rwa [hp, hcs], by rwa [hsck]⟩

theorem seqOk_of_idle {s : State} (h : s.seq = .idle) : s.SeqOk := by
  simp only [State.SeqOk, h]

theorem seqOk_of_wait {s : State} (h : s.seq = .wait) : s.SeqOk := by
  simp only [State.SeqOk, h]

/-- SEQ fits the lines or not by the parameters, CS and SCK alone. -/
theorem State.SeqOk.of_lines {s t : State} (h : s.SeqOk) (hp : t.params = s.params) (hcs : t.cs = s.cs)
    (hsck : t.sck = s.sck) (hq : t.seq = s.seq) : t.SeqOk := by
  unfold State.SeqOk at h ⊢
  rw [hq]
  cases hs : s.seq with
  | idle | wait => trivial
  | busWrite j | busRead j =>
    rw [hs] at h
    exact h.of_lines hp hcs hsck
  | render m bytes kb j =>
    rw [hs] at h
    obtain ⟨hj, hrest⟩ := h
    rw [hp]
    exact ⟨hj.of_lines hp hcs hsck, hrest⟩
  | dispClear bytes kb j =>
    rw [hs] at h
    obtain ⟨hj, hrest⟩ := h
    exact ⟨hj.of_lines hp hcs hsck, hrest⟩

theorem inv_invView_iff (s : State) : s.invView.Inv ↔ s.Inv :=
  ⟨fun h => { h with sequencer := h.sequencer.of_lines rfl rfl rfl rfl },
    fun h => { h with sequencer := h.sequencer.of_lines rfl rfl rfl rfl }⟩

theorem State.Inv.of_invView_eq {s t : State} (hs : s.Inv) (h : t.invView = s.invView) : t.Inv := by
  rwa [← inv_invView_iff, h, inv_invView_iff]

/-! ### The lines and SEQ through the micro-steps (R25, R29) -/

/-- The selector lines of a block: NSEL of them, at most one active (R24, R25). -/
structure State.LinesOk (s : State) : Prop where
  length : s.cs.length = s.params.nsel
  oneSelector : s.cs.count false ≤ 1

/-- No selector is active. -/
def State.AllHigh (s : State) : Prop := s.cs = List.replicate s.params.nsel true

theorem linesOk_of_high {s : State} (h : s.AllHigh) : s.LinesOk :=
  ⟨(congrArg List.length h).trans List.length_replicate, by rw [h]; simp [List.count_replicate]⟩

theorem State.LinesOk.withSeq {s : State} (h : s.LinesOk) (q : Seq) : (s.withSeq q).LinesOk :=
  ⟨h.length, h.oneSelector⟩

theorem linesOk_of_one {s : State} {k : Nat} (h : s.cs = (List.replicate s.params.nsel true).set k false) :
    s.LinesOk := by
  refine ⟨by simp [h], ?_⟩
  rw [h]
  by_cases hk : k < s.params.nsel
  · rw [List.count_set (by simpa using hk)]
    simp [List.count_replicate]
  · rw [List.set_eq_of_length_le (by simpa using hk)]
    simp [List.count_replicate]

theorem WriteJob.Ok.linesOk {s : State} {j : WriteJob} (h : j.Ok s) : s.LinesOk := by
  by_cases hph : j.ph = .assert
  · exact linesOk_of_high (h.before hph)
  · exact linesOk_of_one (h.during hph)

theorem ReadJob.Ok.linesOk {s : State} {j : ReadJob} (h : j.Ok s) : s.LinesOk := by
  by_cases hph : j.ph = .assert
  · exact linesOk_of_high (h.before hph)
  · exact linesOk_of_one (h.during hph)

/-- Releasing the asserted line leaves every line high. -/
theorem replicate_set_false_set_true (n k : Nat) :
    ((List.replicate n true).set k false).set k true = List.replicate n true := by
  rw [List.set_set, List.set_replicate_self]

theorem WriteJob.start_ok {s : State} {sel : Nat} {byte : Byte} (hcs : s.AllHigh)
    (hsel : sel < s.params.nsel) : (WriteJob.start sel byte).Ok s :=
  ⟨hsel, le_refl 7, fun _ => hcs, fun h => absurd rfl h, nofun⟩

theorem ReadJob.start_ok {s : State} {sel n : Nat} (hcs : s.AllHigh)
    (hsel : sel < s.params.nsel) (hn : n ≤ s.params.resultW) : (ReadJob.start sel n).Ok s :=
  ⟨hsel, hn, Nat.zero_le n, Nat.two_pow_pos _, fun _ => hcs, fun h => absurd rfl h, nofun⟩

/-- A micro-step of a write leaves a write of the same byte that fits the lines, or every line high. -/
theorem writeMicro_ok (j : WriteJob) (s : State) (hj : j.Ok s) :
    (∀ j', (writeMicro j s).2 = some j' → j'.Ok (writeMicro j s).1 ∧ j'.sel = j.sel ∧ j'.sr = j.sr)
      ∧ ((writeMicro j s).2 = none → (writeMicro j s).1.AllHigh) := by
  obtain ⟨sel, sr, i, ph⟩ := j
  obtain ⟨hsel, hbit, hbefore, hduring, hclock⟩ := hj
  cases ph with
  | assert =>
    refine ⟨?_, nofun⟩
    rintro _ ⟨⟩
    refine ⟨⟨hsel, le_refl 7, nofun, fun _ => ?_, nofun⟩, rfl, rfl⟩
    exact congrArg (List.set · sel false) (hbefore rfl)
  | data =>
    refine ⟨?_, nofun⟩
    rintro _ ⟨⟩
    exact ⟨⟨hsel, hbit, nofun, fun _ => hduring nofun, nofun⟩, rfl, rfl⟩
  | clkHigh =>
    refine ⟨?_, nofun⟩
    rintro _ ⟨⟩
    exact ⟨⟨hsel, hbit, nofun, fun _ => hduring nofun, fun _ => rfl⟩, rfl, rfl⟩
  | clkLow =>
    cases i with
    | zero =>
      refine ⟨?_, nofun⟩
      rintro _ ⟨⟩
      exact ⟨⟨hsel, hbit, nofun, fun _ => hduring nofun, nofun⟩, rfl, rfl⟩
    | succ i =>
      refine ⟨?_, nofun⟩
      rintro _ ⟨⟩
      exact ⟨⟨hsel, (Nat.le_succ i).trans hbit, nofun, fun _ => hduring nofun, nofun⟩, rfl, rfl⟩
  | deassert =>
    refine ⟨nofun, fun _ => ?_⟩
    exact (congrArg (List.set · sel true) (hduring nofun)).trans (replicate_set_false_set_true _ sel)

theorem nextBit_ok (j : ReadJob) (k : Nat) (s : State) (hsel : j.sel < s.params.nsel)
    (hcount : j.n ≤ s.params.resultW) (hacc : j.acc.toNat < 2 ^ s.params.resultW) (hk : k ≤ j.n)
    (hcs : s.cs = (List.replicate s.params.nsel true).set j.sel false) : (j.nextBit k).Ok s := by
  cases k with
  | zero => exact ⟨hsel, hcount, Nat.zero_le _, hacc, nofun, fun _ => hcs, nofun⟩
  | succ k => exact ⟨hsel, hcount, Nat.le_of_succ_le hk, hacc, nofun, fun _ => hcs, nofun⟩

/-- A micro-step of a read leaves a read that fits the lines, or every line high. -/
theorem readMicro_ok (j : ReadJob) (s : State) (hw : s.params.resultW ≤ 32) (hj : j.Ok s) :
    (∀ j', (readMicro j s).2 = some j' → j'.Ok (readMicro j s).1)
      ∧ ((readMicro j s).2 = none → (readMicro j s).1.AllHigh) := by
  obtain ⟨sel, n, i, acc, ph⟩ := j
  obtain ⟨hsel, hcount, hbit, hacc, hbefore, hduring, hclock⟩ := hj
  cases ph with
  | assert =>
    refine ⟨?_, nofun⟩
    rintro _ ⟨⟩
    exact nextBit_ok _ n _ hsel hcount hacc le_rfl (congrArg (List.set · sel false) (hbefore rfl))
  | clkHigh =>
    refine ⟨?_, nofun⟩
    rintro _ ⟨⟩
    exact ⟨hsel, hcount, hbit, hacc, nofun, fun _ => hduring nofun, fun _ => rfl⟩
  | sample =>
    refine ⟨?_, nofun⟩
    rintro _ ⟨⟩
    exact ⟨hsel, hcount, hbit, truncTo_lt _ hw _, nofun, fun _ => hduring nofun, fun _ => hclock (.inl rfl)⟩
  | clkLow =>
    refine ⟨?_, nofun⟩
    rintro _ ⟨⟩
    exact nextBit_ok _ i _ hsel hcount hacc hbit (hduring nofun)
  | deassert =>
    refine ⟨nofun, fun _ => ?_⟩
    exact (congrArg (List.set · sel true) (hduring nofun)).trans (replicate_set_false_set_true _ sel)

theorem writeMicro_params (j : WriteJob) (s : State) : (writeMicro j s).1.params = s.params :=
  (congrArg State.params (writeMicro_frame j s) :)

/-- A display byte of a sequence in progress: the job fits the lines, drives DISPLAY and sends the byte at its index. -/
def StreamOk (s : State) (bytes : List Byte) (kb : Nat) (j : WriteJob) : Prop :=
  j.Ok s ∧ j.sel = display ∧ bytes[kb]? = some j.sr

/-- A micro-step of a byte sequence leaves one that fits the lines, or SEQ idle and every line high. -/
theorem streamMicro_ok (resume : Nat → WriteJob → Seq) (last : Option Word16) (bytes : List Byte) (kb : Nat)
    (j : WriteJob) (s : State) (hnsel : display < s.params.nsel) (hj : StreamOk s bytes kb j) :
    (∃ kb' j', (streamMicro resume last bytes kb j s).seq = resume kb' j'
        ∧ StreamOk (streamMicro resume last bytes kb j s) bytes kb' j')
    ∨ ((streamMicro resume last bytes kb j s).seq = .idle
        ∧ (streamMicro resume last bytes kb j s).AllHigh) := by
  obtain ⟨hok, hsel, hbyte⟩ := hj
  obtain ⟨hgoes, hends⟩ := writeMicro_ok j s hok
  obtain ⟨j', hj', hs⟩ | ⟨b, hend, hb, hs⟩ | ⟨hend, -, hs⟩ := streamMicro_cases resume last bytes kb j s <;> rw [hs]
  · obtain ⟨hok', hsel', hsr'⟩ := hgoes j' hj'
    exact .inl ⟨kb, j', rfl, hok'.of_lines rfl rfl rfl, hsel'.trans hsel, hsr' ▸ hbyte⟩
  · exact .inl ⟨kb + 1, _, rfl, WriteJob.start_ok (hends hend) (writeMicro_params j s ▸ hnsel), rfl, hb⟩
  · exact .inr ⟨rfl, hends hend⟩

/-- A micro-step of the command in progress leaves a SEQ and lines that fit each other. -/
theorem continueCommand_seqOk (s : State) (hp : s.params.wf = true) (hlines : s.LinesOk) (hs : s.SeqOk) :
    (continueCommand s).SeqOk ∧ (continueCommand s).LinesOk := by
  obtain ⟨hnsel, -, -, hresultW, -⟩ := (params_wf_iff s.params).1 hp
  unfold State.SeqOk at hs
  cases hq : s.seq with
  | idle =>
    rw [continueCommand_idle s hq]
    exact ⟨seqOk_of_idle hq, hlines⟩
  | wait =>
    rw [continueCommand_wait s hq]
    split
    · exact ⟨seqOk_of_wait hq, hlines⟩
    · exact ⟨trivial, hlines.withSeq .idle⟩
  | busWrite j =>
    rw [hq] at hs
    obtain ⟨hgoes, hends⟩ := writeMicro_ok j s hs
    rw [continueCommand_busWrite s j hq]
    cases hj : (writeMicro j s).2 with
    | none => exact ⟨trivial, (linesOk_of_high (hends hj)).withSeq .idle⟩
    | some j' =>
      obtain ⟨hok, -⟩ := hgoes j' hj
      exact ⟨hok.of_lines rfl rfl rfl, hok.linesOk.withSeq (.busWrite j')⟩
  | busRead j =>
    rw [hq] at hs
    obtain ⟨hgoes, hends⟩ := readMicro_ok j s hresultW hs
    rw [continueCommand_busRead s j hq]
    cases hj : (readMicro j s).2 with
    | none => exact ⟨trivial, (linesOk_of_high (hends hj)).withSeq .idle⟩
    | some j' =>
      have hok := hgoes j' hj
      exact ⟨hok.of_lines rfl rfl rfl, hok.linesOk.withSeq (.busRead j')⟩
  | render m bytes kb j =>
    rw [hq] at hs
    obtain ⟨hj, hsel, hbytes, hbyte, hm⟩ := hs
    rw [continueCommand_render s m bytes kb j hq]
    have hparams : (streamMicro (.render m bytes) (some m) bytes kb j s).params = s.params :=
      (congrArg State.params (streamMicro_frame _ _ _ _ _ s) :)
    obtain ⟨kb', j', hseq, hok, hsel', hbyte'⟩ | ⟨hseq, hhigh⟩ :=
      streamMicro_ok (.render m bytes) (some m) bytes kb j s hnsel ⟨hj, hsel, hbyte⟩
    · refine ⟨?_, hok.linesOk⟩
      rw [State.SeqOk, hseq, hparams]
      exact ⟨hok, hsel', hbytes, hbyte', hm⟩
    · exact ⟨seqOk_of_idle hseq, linesOk_of_high hhigh⟩
  | dispClear bytes kb j =>
    rw [hq] at hs
    obtain ⟨hj, hsel, hbytes, hbyte⟩ := hs
    rw [continueCommand_dispClear s bytes kb j hq]
    obtain ⟨kb', j', hseq, hok, hsel', hbyte'⟩ | ⟨hseq, hhigh⟩ :=
      streamMicro_ok (.dispClear bytes) none bytes kb j s hnsel ⟨hj, hsel, hbyte⟩
    · refine ⟨?_, hok.linesOk⟩
      rw [State.SeqOk, hseq]
      exact ⟨hok, hsel', hbytes, hbyte'⟩
    · exact ⟨seqOk_of_idle hseq, linesOk_of_high hhigh⟩

end Sys2Proof.Machine

/-! ### Every turn keeps the invariant -/

namespace Sys2Proof.Machine

/-- LAST takes only the number of a RENDER in progress, which is in range (C6). -/
theorem continueCommand_cache (s : State) (hs : s.Inv) (v : Word16) (hv : (continueCommand s).last = some v) :
    overRange s.params v = false := by
  have hseq := hs.sequencer
  obtain hkeep | ⟨m, bytes, kb, j, hq, -, -, hlast, -⟩ | ⟨bytes, kb, j, -, -, -, hlast, -⟩ :=
    continueCommand_last_cases s
  · exact hs.cache v (hkeep ▸ hv)
  · rw [State.SeqOk, hq] at hseq
    obtain ⟨-, -, -, -, hm⟩ := hseq
    obtain rfl : m = v := Option.some.inj (hlast.symm.trans hv)
    exact hm
  · cases hlast.symm.trans hv

theorem continueCommand_sleep_seq (s : State) (hs : s.sleep = true → s.seq = .wait) (hsleep : s.sleep = true) :
    (continueCommand s).seq = .wait := by
  rw [continueCommand_wait s (hs hsleep), if_pos hsleep]
  exact hs hsleep

/-- A micro-step of the command in progress, no fault standing, keeps the invariant. -/
theorem continueCommand_inv (s : State) (hf : s.fault = 0) (hs : s.Inv) : (continueCommand s).Inv := by
  obtain ⟨hseq, hlines⟩ := continueCommand_seqOk s hs.params ⟨hs.lines, hs.oneSelector⟩ hs.sequencer
  have hcache := continueCommand_cache s hs
  have hsleep := continueCommand_sleep_seq s hs.sleeping
  rw [continueCommand_frame] at hseq hlines ⊢
  exact { hs with
    lines := hlines.length
    oneSelector := hlines.oneSelector
    stopped := fun h => absurd hf h
    sleeping := hsleep
    cache := hcache
    sequencer := hseq }

/-- A state with SEQ idle and no fault, and another state of SEQ that fits its lines. -/
theorem withSeq_inv {s : State} {q : Seq} (hs : s.Inv) (hfree : s.canIssue = true) (hq : (s.withSeq q).SeqOk) :
    (s.withSeq q).Inv := by
  obtain ⟨hidle, hf⟩ := (canIssue_iff s).1 hfree
  exact { hs with
    stopped := fun h => absurd hf h
    sleeping := fun h => nomatch hidle.symm.trans (hs.sleeping h)
    sequencer := hq }

theorem beginCommand_inv {s : State} {q : Seq} (hs : s.Inv) (hfree : s.canIssue = true)
    (hq : (s.withSeq q).SeqOk) : (beginCommand q s).Inv :=
  continueCommand_inv (s.withSeq q) ((canIssue_iff s).1 hfree).2 (withSeq_inv hs hfree hq)

theorem allHigh_of_not_busy {s : State} (hs : s.Inv) (hb : s.busy = false) : s.AllHigh :=
  List.eq_replicate_iff.2 ⟨hs.lines, lines_high_of_not_busy s hb⟩

theorem setCs_inv {s : State} {k : Nat} {v : Level} (hs : s.Inv) (hq : s.seq = .idle)
    (hone : (s.cs.set k v).count false ≤ 1) : (setCs k v s).Inv :=
  { hs with
    lines := (List.length_set ..).trans hs.lines
    oneSelector := hone
    sequencer := seqOk_of_idle hq }

theorem count_false_set_true_le (cs : List Level) (k : Nat) : (cs.set k true).count false ≤ cs.count false := by
  by_cases hk : k < cs.length
  · rw [List.count_set hk]
    simp
  · rw [List.set_eq_of_length_le (Nat.not_lt.1 hk)]

/-- A command to which no fault applies, issued by a free HOST, keeps the invariant. -/
theorem commandEffect_inv (i : Instr) (s : State) (hs : s.Inv) (hfree : s.canIssue = true)
    (hnone : firstFault i s = none) : (commandEffect i s).Inv := by
  obtain ⟨hq, hf⟩ := (canIssue_iff s).1 hfree
  obtain ⟨hsel, hcount, hnumber, hbusy⟩ := (firstFault_eq_none_iff i s).1 hnone
  have hnsel : display < s.params.nsel := ((params_wf_iff _).1 hs.params).1
  cases i with
  | busWrite sel byte =>
    have hhigh := allHigh_of_not_busy hs hbusy
    have hlt : sel.toNat < s.params.nsel := by simpa [selectorOf, selectorExists] using hsel
    exact beginCommand_inv hs hfree (WriteJob.start_ok hhigh hlt)
  | busRead sel n =>
    have hhigh := allHigh_of_not_busy hs hbusy
    have hlt : sel.toNat < s.params.nsel := by simpa [selectorOf, selectorExists] using hsel
    have hle : n.toNat ≤ s.params.resultW := by simpa [bitCountOf, countFits] using hcount
    exact beginCommand_inv hs hfree (ReadJob.start_ok hhigh hlt hle)
  | csAssert sel =>
    have hcs : (setCs sel.toNat false s).cs = (List.replicate s.params.nsel true).set sel.toNat false :=
      congrArg (List.set · sel.toNat false) (allHigh_of_not_busy hs hbusy)
    exact setCs_inv hs hq (linesOk_of_one hcs).oneSelector
  | csDeassert sel => exact setCs_inv hs hq ((count_false_set_true_le _ _).trans hs.oneSelector)
  | dataDrive | dataSample | tickRead | ieSet | encode => exact hs.of_invView_eq rfl
  | clkSet b => exact { hs with sequencer := seqOk_of_idle hq }
  | tickClear => exact { hs with tick := truncTo_lt _ (tickW_le_of_wf hs.params) _, sequencer := seqOk_of_idle hq }
  | wait =>
    exact { hs with stopped := fun h => absurd hf h, sleeping := fun _ => rfl, sequencer := seqOk_of_wait rfl }
  | timerCfg top =>
    refine { hs with timer := rfl, counter := ?_, sequencer := seqOk_of_idle hq }
    by_cases htop : top = 0
    · subst htop
      rfl
    · show if decide (top ≠ 0) = true then 0 < top else (0 : Word16) = 0
      rw [if_pos (decide_eq_true htop)]
      bv_omega
  | render m =>
    rw [commandEffect]
    split
    · exact hs
    next hlast =>
      have hhigh := allHigh_of_not_busy hs (by simpa [startsTransaction, hlast] using hbusy)
      exact beginCommand_inv hs hfree ⟨WriteJob.start_ok hhigh hnsel, rfl, rfl, rfl, hnumber⟩
  | dispClear =>
    have hhigh := allHigh_of_not_busy hs hbusy
    exact beginCommand_inv hs hfree ⟨WriteJob.start_ok hhigh hnsel, rfl, rfl, rfl⟩

theorem timerClk_inv (s : State) (hs : s.Inv) : (timerClk s).Inv := by
  cases hten : s.ten with
  | false => rwa [timerClk_off s hten]
  | true =>
    have hcounter := hs.counter
    rw [if_pos hten] at hcounter
    have hlt := timerClk_timerOk s fun _ => hcounter
    rw [timerClk_frame] at hlt ⊢
    refine { hs with counter := ?_, sequencer := hs.sequencer.of_lines rfl rfl rfl rfl }
    show if s.ten = true then _ else _
    rw [if_pos hten]
    exact hlt hten

theorem tickService_inv (s : State) (hs : s.Inv) : (tickService s).Inv := by
  by_cases hon : s.pend = true ∧ s.gie = true
  · obtain ⟨hpend, hgie⟩ := hon
    rw [tickService_on s hpend hgie]
    exact { hs with
      tick := truncTo_lt _ (tickW_le_of_wf hs.params) _
      sleeping := nofun
      sequencer := hs.sequencer.of_lines rfl rfl rfl rfl }
  · have hoff : s.pend = false ∨ s.gie = false := by simpa only [not_and_or, Bool.not_eq_true] using hon
    rwa [tickService_off s hoff]

theorem hostTurn_inv (s t : State) (hs : s.Inv) (h : hostTurn s = .next t) : t.Inv := by
  obtain rfl | ⟨c, w, hfree, rfl⟩ | ⟨i, hissue, hnone, rfl⟩ | ⟨hf, -, rfl⟩ := hostTurn_next_cases s t h
  · exact hs
  · obtain ⟨hq, -⟩ := (canIssue_iff s).1 hfree
    exact { hs with faults := .inr ⟨c, rfl⟩, stopped := fun _ => hq, sequencer := seqOk_of_idle hq }
  · have hfree := canIssue_of_aboutToIssue hissue
    exact commandEffect_inv i { s with program := s.program.tail } (hs.of_invView_eq rfl) hfree hnone
  · exact continueCommand_inv s hf hs

theorem powerUp_inv (p : Params) (k : Nat) (hp : p.wf = true) : (State.powerUp p k).Inv := by
  obtain ⟨-, -, -, -, -, htickW, hcache⟩ := (params_wf_iff p).1 hp
  have hlines : (State.powerUp p k).LinesOk := linesOk_of_high rfl
  exact {
    params := hp
    lines := hlines.length
    oneSelector := hlines.oneSelector
    tick := truncTo_lt _ htickW _
    timer := rfl
    counter := rfl
    faults := .inl ⟨rfl, rfl⟩
    stopped := fun _ => rfl
    sleeping := nofun
    cache := fun v hv => overRange_of_le p v (hcache v hv)
    sequencer := trivial }

theorem takeTurn_inv (x : Turn) (s t : State) (hs : s.Inv) (h : takeTurn x s = .next t) : t.Inv := by
  by_cases hx : x = .powerOn
  · subst hx
    cases h
    exact (powerUp_inv s.params s.powerOns hs.params).of_invView_eq rfl
  · obtain ⟨rfl, -⟩ | ⟨-, hhost⟩ | ⟨-, rfl⟩ | ⟨-, rfl⟩ := takeTurn_cases x hx s t h
    · exact hs
    · exact hostTurn_inv s t hs hhost
    · exact timerClk_inv s hs
    · exact tickService_inv s hs

/-- Settles O19: each agent's turn keeps the invariant, and a power-on establishes it. -/
theorem stepKeepsInvariant : Obligations.StepKeepsInvariant :=
  fun s t hs h => takeTurn_inv s.nextTurn s.advance t (hs.of_invView_eq rfl) h

/-- Settles O18: the reset values meet the invariant, this hardware's parameters among them. -/
theorem invariantAtPowerUp : Obligations.InvariantAtPowerUp :=
  ⟨powerUp_inv, powerUp_inv Params.hardware 0 rfl⟩

end Sys2Proof.Machine

/-! ### The step and the turns (spec 20_memory.md R58, 60_exceptions.md R201, R212) -/

namespace Sys2Proof.Machine

/-- Settles O7: HOST's turn issues its next word, and a decoded word runs its command. -/
theorem stepRunsDecodedCommand : Obligations.StepRunsDecodedCommand := by
  rintro s ⟨context, w⟩ rest i hturn hf hq hp rfl hw
  rw [step, hturn, takeTurn, hostTurn_issue s.advance _ rest hf hq hp, issue_instr w i _ hw]

theorem withFetchWord_nextTurn (s : State) (n w : Nat) : (s.withFetchWord n w).nextTurn = .host :=
  nextTurn_cons _ .host s.schedule rfl

theorem withFetchWord_advance (s : State) (n w : Nat) :
    (s.withFetchWord n w).advance = { s.withFetchWord n w with schedule := s.schedule } :=
  advance_cons _ .host s.schedule rfl

/-- Settles O8: the placed word is HOST's next, and its placement is used up with the turn. -/
theorem placedWordIsIssued : Obligations.PlacedWordIsIssued := by
  intro s w
  have hword : BitVec.ofNat 24 (w.toNat % 2 ^ 24) = w := by
    rw [Nat.mod_eq_of_lt w.isLt, BitVec.ofNat_toNat, BitVec.setWidth_eq]
  rw [step, withFetchWord_nextTurn, withFetchWord_advance, takeTurn,
    hostTurn_issue _ ⟨.main, BitVec.ofNat 24 (w.toNat % 2 ^ 24)⟩ s.program rfl rfl rfl, hword]
  rfl

/-- Settles O9: HOST's turn out of IDLE is `continueCommand`. -/
theorem stepContinuesCommand : Obligations.StepContinuesCommand := by
  intro s hturn hf hq
  rw [step, hturn, takeTurn, hostTurn_continue s.advance hf hq]

/-- HOST is free to issue, and its next command comes from interrupt context (R232). -/
def State.AtInterruptCommand (s : State) : Prop :=
  s.canIssue = true ∧ ∃ c rest, s.program = c :: rest ∧ c.context = .interrupt

/-- HOST's turn is refused at a command from interrupt context, and answers a next state else. -/
theorem hostTurn_outcome (s : State) :
    (¬s.AtInterruptCommand ∧ ∃ t, hostTurn s = .next t)
      ∨ (s.AtInterruptCommand ∧ hostTurn s = .refused .interruptContextCommand) := by
  obtain ⟨hf, hnext⟩ | ⟨-, -, hp, hnext⟩ | ⟨⟨context, w⟩, rest, hf, hq, hp, hnext⟩ | ⟨-, hq, hnext⟩ := hostTurn_cases s
  · exact .inl ⟨fun ⟨hfree, _⟩ => hf ((canIssue_iff s).1 hfree).2, _, hnext⟩
  · exact .inl ⟨fun ⟨_, _, _, hcons, _⟩ => (nomatch hp.symm.trans hcons), _, hnext⟩
  · rw [hnext]
    cases context with
    | interrupt => exact .inr ⟨⟨(canIssue_iff s).2 ⟨hq, hf⟩, _, rest, hp, rfl⟩, rfl⟩
    | main =>
      refine .inl ⟨?_, ?_⟩
      · rintro ⟨-, c, rest', hcons, hc⟩
        cases hp.symm.trans hcons
        cases hc
      · cases hw : decode w with
        | illegal why => exact ⟨_, issue_illegal w why _ hw⟩
        | instr i =>
          rw [issue_instr w i _ hw]
          exact exec_next i _
  · exact .inl ⟨fun ⟨hfree, _⟩ => hq ((canIssue_iff s).1 hfree).1, _, hnext⟩

/-- The same of any turn: only HOST's can stop. -/
theorem takeTurn_outcome (x : Turn) (s : State) :
    (¬(x = .host ∧ s.AtInterruptCommand) ∧ ∃ t, takeTurn x s = .next t)
      ∨ ((x = .host ∧ s.AtInterruptCommand) ∧ takeTurn x s = .refused .interruptContextCommand) := by
  cases x with
  | host =>
    obtain ⟨hno, hnext⟩ | ⟨hat, hstop⟩ := hostTurn_outcome s
    · exact .inl ⟨fun h => hno h.2, hnext⟩
    · exact .inr ⟨⟨rfl, hat⟩, hstop⟩
  | timerClk | tickService | readPort | powerOn => exact .inl ⟨nofun, _, rfl⟩

/-- Settles O12: of the turns only HOST's can stop, at the issue of such a command. -/
theorem stepStopsOnlyAtInterruptContextCommand : Obligations.StepStopsOnlyAtInterruptContextCommand := by
  intro s
  obtain ⟨hno, t, hnext⟩ | ⟨⟨hx, hfree, hprogram⟩, hstop⟩ := takeTurn_outcome s.nextTurn s.advance
  · refine ⟨fun r => ⟨fun h => (nomatch hnext.symm.trans h), ?_⟩, .inl ⟨t, hnext⟩⟩
    rintro ⟨hx, hfree, -, hprogram⟩
    exact absurd ⟨hx, hfree, hprogram⟩ hno
  · refine ⟨fun r => ⟨fun h => ?_, ?_⟩, .inr hstop⟩
    · exact ⟨hx, hfree, Host.Outcome.refused.inj (h.symm.trans hstop), hprogram⟩
    · rintro ⟨-, -, rfl, -⟩
      exact hstop

/-- Settles O13: a read is a turn that leaves the state as it is. -/
theorem readPortShowsThreeRegisters : Obligations.ReadPortShowsThreeRegisters := by
  intro s
  refine ⟨readPort_result s, readPort_noResult s, rfl, rfl, fun p hp => ?_, fun p => rfl⟩
  rw [step, hp, takeTurn, readTurn_eq]

/-- Settles O16: the turn is the power-on operation. -/
theorem powerOnTakesResetValues : Obligations.PowerOnTakesResetValues := fun _ => rfl

/-- Settles O17: every line is high and TEN and PEND are 0. -/
theorem afterResetHostIssuesAndNoTickComes : Obligations.AfterResetHostIssuesAndNoTickComes := by
  intro p k
  have hbusy : (State.powerUp p k).busy = false := by simp [State.busy, State.powerUp]
  exact ⟨rfl, hbusy, rfl, rfl, timerClk_off _ rfl, tickService_off _ (.inl rfl)⟩

/-- Settles O53: RENDER's check of LAST comes before its overlap check. -/
theorem cachedRenderIsSuppressed : Obligations.CachedRenderIsSuppressed :=
  fun s m hm hlast => exec_render_cached m s hm hlast

/-! ### What a faulted state does (R33, R201) -/

/-- A turn of another agent than HOST, or a read, changes TICK, TCNT, PEND and SLEEP at most. -/
theorem takeTurn_other (x : Turn) (hx : x ≠ .powerOn) (hhost : x ≠ .host) (s : State) :
    ∃ t, takeTurn x s = .next t ∧ t.withoutTicks = s.withoutTicks := by
  cases x with
  | host => exact absurd rfl hhost
  | timerClk => exact ⟨_, rfl, by rw [timerClk_frame]; rfl⟩
  | tickService => exact ⟨_, rfl, by rw [tickService_frame]; rfl⟩
  | readPort p => exact ⟨s, rfl, rfl⟩
  | powerOn => exact absurd rfl hx

/-- With a fault standing, a turn that is no power-on changes them at most. -/
theorem takeTurn_faulted (x : Turn) (hx : x ≠ .powerOn) (s : State) (hf : s.fault ≠ 0) :
    ∃ t, takeTurn x s = .next t ∧ t.withoutTicks = s.withoutTicks := by
  by_cases hhost : x = .host
  · subst hhost
    exact ⟨s, hostTurn_faulted s hf, rfl⟩
  · exact takeTurn_other x hx hhost s

theorem fault_of_withoutTicks_eq {s t : State} (h : t.withoutTicks = s.withoutTicks) : t.fault = s.fault :=
  (congrArg State.fault h :)

/-- Settles O22: HOST does not act on a faulted state, and no other agent writes the fault registers. -/
theorem faultStandsUntilPowerOn : Obligations.FaultStandsUntilPowerOn := by
  intro s t hstep hf hx
  obtain ⟨u, hu, heq⟩ := takeTurn_faulted s.nextTurn hx s.advance hf
  obtain rfl : t = u := Host.Outcome.next.inj (hstep.symm.trans hu)
  exact ⟨(congrArg State.fault heq :), (congrArg State.faultCmd heq :)⟩

/-- Settles O23, by induction on the turns: each leaves the fault standing. -/
theorem faultedHostIsStuck : Obligations.FaultedHostIsStuck := by
  intro ts
  induction ts with
  | nil => exact fun s _ _ => ⟨s, rfl, rfl⟩
  | cons x ts ih =>
    intro s hf hts
    obtain ⟨hx, hts⟩ := List.forall_mem_cons.1 hts
    obtain ⟨u, hu, heq⟩ := takeTurn_faulted x hx s hf
    obtain ⟨t, hrun, ht⟩ := ih u (fault_of_withoutTicks_eq heq ▸ hf) hts
    exact ⟨t, by simp only [runTurns, hu, hrun], ht.trans heq⟩

end Sys2Proof.Machine

/-! ### Registers and their writers (spec 10_state.md R22) -/

namespace Sys2Proof.Machine

/-- The micro-step that comes next is no last one: it asserts a line. -/
def Seq.AtAssert : Seq → Prop
  | .idle | .wait => False
  | .busWrite j => j.ph = .assert
  | .busRead j => j.ph = .assert
  | .render _ _ _ j => j.ph = .assert
  | .dispClear _ _ j => j.ph = .assert

/-- A command's first micro-step of several writes no RESULT. -/
theorem beginCommand_result (q : Seq) (s : State) (hq : q.AtAssert) :
    (beginCommand q s).result = s.result ∧ (beginCommand q s).resultValid = s.resultValid := by
  obtain hkeep | ⟨j, rfl, hph⟩ := continueCommand_result_cases (s.withSeq q)
  · exact hkeep
  · cases hq.symm.trans hph

/-- A command's first micro-step of several does not write LAST. -/
theorem beginCommand_last (q : Seq) (s : State) (hq : q.AtAssert) : (beginCommand q s).last = s.last := by
  obtain hkeep | ⟨m, bytes, kb, j, rfl, hph, -⟩ | ⟨bytes, kb, j, rfl, hph, -⟩ :=
    continueCommand_last_cases (s.withSeq q)
  · exact hkeep
  · cases hq.symm.trans hph
  · cases hq.symm.trans hph

/-- Of the commands' issues only DATA_SAMPLE, TICK_READ and ENCODE write RESULT. -/
theorem commandEffect_result_cases (i : Instr) (s : State) :
    ((commandEffect i s).result = s.result ∧ (commandEffect i s).resultValid = s.resultValid)
      ∨ i = .dataSample ∨ i = .tickRead ∨ ∃ m, i = .encode m := by
  cases i with
  | dataSample => exact .inr (.inl rfl)
  | tickRead => exact .inr (.inr (.inl rfl))
  | encode m => exact .inr (.inr (.inr ⟨m, rfl⟩))
  | busWrite | busRead | dispClear => exact .inl (beginCommand_result _ s rfl)
  | render m =>
    rw [commandEffect]
    split
    · exact .inl ⟨rfl, rfl⟩
    · exact .inl (beginCommand_result _ s rfl)
  | _ => exact .inl ⟨rfl, rfl⟩

/-- No command's issue writes LAST. -/
theorem commandEffect_last (i : Instr) (s : State) : (commandEffect i s).last = s.last := by
  cases i with
  | busWrite | busRead | dispClear => exact beginCommand_last _ s rfl
  | render m =>
    rw [commandEffect]
    split
    · rfl
    · exact beginCommand_last _ s rfl
  | _ => rfl

theorem hostTurn_result_cases (s t : State) (h : hostTurn s = .next t) :
    (t.result = s.result ∧ t.resultValid = s.resultValid)
      ∨ (∃ j, s.seq = .busRead j ∧ j.ph = .deassert) ∨ s.aboutToIssue .dataSample = true
      ∨ s.aboutToIssue .tickRead = true ∨ ∃ m, s.aboutToIssue (.encode m) = true := by
  obtain rfl | ⟨c, w, -, rfl⟩ | ⟨i, hissue, -, rfl⟩ | ⟨-, -, rfl⟩ := hostTurn_next_cases s t h
  · exact .inl ⟨rfl, rfl⟩
  · exact .inl ⟨rfl, rfl⟩
  · obtain hkeep | rfl | rfl | ⟨m, rfl⟩ := commandEffect_result_cases i { s with program := s.program.tail }
    · exact .inl hkeep
    · exact .inr (.inr (.inl hissue))
    · exact .inr (.inr (.inr (.inl hissue)))
    · exact .inr (.inr (.inr (.inr ⟨m, hissue⟩)))
  · exact (continueCommand_result_cases s).imp_right .inl

/-- HOST's turn writes FAULT and FAULT_CMD only to raise a fault. -/
theorem hostTurn_fault_cases (s t : State) (h : hostTurn s = .next t) :
    (t.fault = s.fault ∧ t.faultCmd = s.faultCmd) ∨ (s.canIssue = true ∧ t.fault ≠ 0) := by
  obtain rfl | ⟨c, w, hfree, rfl⟩ | ⟨i, -, -, rfl⟩ | ⟨-, -, rfl⟩ := hostTurn_next_cases s t h
  · exact .inl ⟨rfl, rfl⟩
  · exact .inr ⟨hfree, code_ne_zero c⟩
  · exact .inl (commandEffect_fault i { s with program := s.program.tail })
  · exact .inl ⟨continueCommand_fault s, continueCommand_faultCmd s⟩

/-- HOST's turn writes LAST only to end a RENDER or a DISP_CLEAR (R32). -/
theorem hostTurn_last_cases (s t : State) (h : hostTurn s = .next t) :
    t.last = s.last
    ∨ (∃ m bytes kb j, s.seq = .render m bytes kb j ∧ j.ph = .deassert ∧ bytes.length ≤ kb + 1
        ∧ t.last = some m ∧ t.seq = .idle)
    ∨ (∃ bytes kb j, s.seq = .dispClear bytes kb j ∧ j.ph = .deassert ∧ bytes.length ≤ kb + 1
        ∧ t.last = none ∧ t.seq = .idle) := by
  obtain rfl | ⟨c, w, -, rfl⟩ | ⟨i, -, -, rfl⟩ | ⟨-, -, rfl⟩ := hostTurn_next_cases s t h
  · exact .inl rfl
  · exact .inl rfl
  · exact .inl (commandEffect_last i { s with program := s.program.tail })
  · exact continueCommand_last_cases s

/-- The flags, the timer and TICK are equal where the states' tick units are. -/
theorem tickUnit_of_withoutBus_eq {s t : State} (h : t.withoutBus = s.withoutBus) :
    t.gie = s.gie ∧ t.pend = s.pend ∧ t.sleep = s.sleep ∧ t.ten = s.ten ∧ t.top = s.top ∧ t.tcnt = s.tcnt
      ∧ t.tick = s.tick :=
  ⟨(congrArg State.gie h :), (congrArg State.pend h :), (congrArg State.sleep h :), (congrArg State.ten h :),
    (congrArg State.top h :), (congrArg State.tcnt h :), (congrArg State.tick h :)⟩

/-- HOST's turn never writes PEND, and another register of the tick unit only to issue that register's command. -/
theorem hostTurn_tickUnit (s t : State) (h : hostTurn s = .next t) :
    (t.gie = s.gie ∨ ∃ b, s.aboutToIssue (.ieSet b) = true ∧ t.gie = b) ∧ t.pend = s.pend
      ∧ (t.sleep = s.sleep ∨ (s.aboutToIssue .wait = true ∧ t.sleep = true))
      ∧ ((t.ten = s.ten ∧ t.top = s.top ∧ t.tcnt = s.tcnt) ∨ ∃ top, s.aboutToIssue (.timerCfg top) = true)
      ∧ (t.tick = s.tick ∨ s.aboutToIssue .tickClear = true) := by
  obtain heq | ⟨i, hissue, heq⟩ := hostTurn_withoutBus s t h
  all_goals obtain ⟨hgie, hpend, hsleep, hten, htop, htcnt, htick⟩ := tickUnit_of_withoutBus_eq heq
  · exact ⟨.inl hgie, hpend, .inl hsleep, .inl ⟨hten, htop, htcnt⟩, .inl htick⟩
  · cases i with
    | tickClear => exact ⟨.inl hgie, hpend, .inl hsleep, .inl ⟨hten, htop, htcnt⟩, .inr hissue⟩
    | wait => exact ⟨.inl hgie, hpend, .inr ⟨hissue, hsleep⟩, .inl ⟨hten, htop, htcnt⟩, .inl htick⟩
    | ieSet b => exact ⟨.inr ⟨b, hissue, hgie⟩, hpend, .inl hsleep, .inl ⟨hten, htop, htcnt⟩, .inl htick⟩
    | timerCfg top => exact ⟨.inl hgie, hpend, .inl hsleep, .inr ⟨top, hissue⟩, .inl htick⟩
    | _ => exact ⟨.inl hgie, hpend, .inl hsleep, .inl ⟨hten, htop, htcnt⟩, .inl htick⟩

theorem timerClk_pend (s : State) : (timerClk s).pend = s.pend ∨ (timerClk s).pend = true := by
  unfold timerClk
  split
  · split
    · exact .inr rfl
    · exact .inl rfl
  · exact .inl rfl

/-- A service changes nothing, or clears SLEEP and PEND. -/
theorem tickService_flags (s : State) :
    tickService s = s ∨ ((tickService s).sleep = false ∧ (tickService s).pend = false) := by
  unfold tickService
  split
  · exact .inr ⟨rfl, rfl⟩
  · exact .inl rfl

/-- Settles O14: each agent's turn writes what R22 lists for it. -/
theorem registersHaveOnlyTheirWriters : Obligations.RegistersHaveOnlyTheirWriters := by
  intro s t hstep
  by_cases hx : s.nextTurn = .powerOn
  · refine ⟨?_, fun h => absurd hx h⟩
    rw [step, hx] at hstep
    cases hstep
    rfl
  refine ⟨takeTurn_params s.nextTurn hx s.advance t hstep, fun _ => ?_⟩
  obtain ⟨rfl, -⟩ | ⟨hx, hhost⟩ | ⟨hx, rfl⟩ | ⟨hx, rfl⟩ := takeTurn_cases s.nextTurn hx s.advance t hstep
  · simp
  · have hissues : ∀ i, s.advance.aboutToIssue i = true → s.issues i := fun i h => (issues_iff s i).2 ⟨hx, h⟩
    obtain ⟨hgie, hpend, hsleep, htimer, htick⟩ := hostTurn_tickUnit s.advance t hhost
    refine ⟨fun hne => ?_, fun hne => ?_, fun hne => ?_, fun hne => absurd hpend hne, fun hne => ?_, fun hne => ?_,
      fun hne => ?_, fun hne => ?_, fun hne => ?_⟩
    · obtain ⟨hresult, hvalid⟩ | hread | hsample | htickRead | ⟨m, hencode⟩ :=
        hostTurn_result_cases s.advance t hhost
      · exact (hne.elim (· hresult) (· hvalid)).elim
      · exact .inl ⟨hx, hread⟩
      · exact .inr (.inl (hissues _ hsample))
      · exact .inr (.inr (.inl (hissues _ htickRead)))
      · exact .inr (.inr (.inr ⟨m, hissues _ hencode⟩))
    · obtain ⟨hfault, hcmd⟩ | hraise := hostTurn_fault_cases s.advance t hhost
      · exact (hne.elim (· hfault) (· hcmd)).elim
      · exact ⟨hx, hraise⟩
    · exact (hgie.resolve_left hne).imp fun b ⟨hissue, _⟩ => hissues _ hissue
    · exact .inl ((hsleep.resolve_left hne).imp_left (hissues _))
    · obtain ⟨hten, htop, -⟩ | ⟨top, hissue⟩ := htimer
      · exact (hne.elim (· hten) (· htop)).elim
      · exact ⟨top, hissues _ hissue⟩
    · obtain ⟨-, -, htcnt⟩ | ⟨top, hissue⟩ := htimer
      · exact absurd htcnt hne
      · exact .inr ⟨top, hissues _ hissue⟩
    · exact .inr (hissues _ (htick.resolve_left hne))
    · exact ⟨hx, (hostTurn_last_cases s.advance t hhost).resolve_left hne⟩
  · have hpend := timerClk_pend s.advance
    rw [timerClk_frame]
    exact ⟨by simp, by simp, by simp, fun hne => .inl ⟨hx, hpend.resolve_left hne⟩, by simp, by simp,
      fun _ => .inl hx, by simp, by simp⟩
  · obtain hkeep | ⟨hsleep, hpend⟩ := tickService_flags s.advance
    · rw [hkeep]
      simp
    · rw [tickService_frame]
      exact ⟨by simp, by simp, by simp, fun _ => .inr ⟨hx, hpend⟩, fun _ => .inr ⟨hx, hsleep⟩, by simp, by simp,
        fun _ => .inl hx, by simp⟩

end Sys2Proof.Machine

/-! ### Changes of the state that HOST's commands do not see (spec 20_memory.md R58, R59) -/

namespace Sys2Proof.Machine

/-- The commands of the tick family (R140 to R144). -/
def usesTickUnit : Instr → Bool
  | .tickRead | .tickClear | .wait | .ieSet _ | .timerCfg _ => true
  | .busWrite _ _ | .busRead _ _ | .csAssert _ | .csDeassert _ | .dataDrive _ | .clkSet _ | .dataSample | .encode _
  | .render _ | .dispClear => false

/-- `f` changes nothing that the bus and encoder commands read or write. -/
structure Unseen (f : State → State) : Prop where
  setCs : ∀ k v s, f (setCs k v s) = setCs k v (f s)
  setClock : ∀ v s, f (setClock v s) = setClock v (f s)
  driveData : ∀ v s, f (driveData v s) = driveData v (f s)
  sampleDin : ∀ k s, f (sampleDin k s) = sampleDin k (f s)
  writeResult : ∀ v s, f (writeResult v s) = writeResult v (f s)
  withSeq : ∀ q s, f (s.withSeq q) = (f s).withSeq q
  withLast : ∀ l s, f (s.withLast l) = (f s).withLast l
  withCommands : ∀ p s, f { s with program := p } = { f s with program := p }
  withFault : ∀ c w s, f { s with fault := c, faultCmd := w } = { f s with fault := c, faultCmd := w }
  params : ∀ s, (f s).params = s.params
  cs : ∀ s, (f s).cs = s.cs
  last : ∀ s, (f s).last = s.last
  seq : ∀ s, (f s).seq = s.seq
  din : ∀ s, (f s).din = s.din
  fault : ∀ s, (f s).fault = s.fault
  program : ∀ s, (f s).program = s.program

section Unseen

variable {f : State → State} (hf : Unseen f)

include hf

theorem Unseen.writeMicro_comm (j : WriteJob) (s : State) :
    writeMicro j (f s) = (f (writeMicro j s).1, (writeMicro j s).2) := by
  obtain ⟨sel, sr, i, ph⟩ := j
  cases ph with
  | assert => exact congrArg (·, _) (hf.setCs _ _ s).symm
  | data => exact congrArg (·, _) (hf.driveData _ s).symm
  | clkHigh => exact congrArg (·, _) (hf.setClock _ s).symm
  | clkLow => cases i <;> exact congrArg (·, _) (hf.setClock _ s).symm
  | deassert => exact congrArg (·, _) (hf.setCs _ _ s).symm

theorem Unseen.readMicro_comm (j : ReadJob) (s : State) :
    readMicro j (f s) = (f (readMicro j s).1, (readMicro j s).2) := by
  obtain ⟨sel, n, i, acc, ph⟩ := j
  cases ph with
  | assert => exact congrArg (·, _) (hf.setCs _ _ s).symm
  | clkHigh => exact congrArg (·, _) (hf.setClock _ s).symm
  | sample => simp only [readMicro, hf.sampleDin, hf.params, hf.din]
  | clkLow => exact congrArg (·, _) (hf.setClock _ s).symm
  | deassert => simp only [readMicro, hf.writeResult, hf.setCs, hf.params]

theorem Unseen.streamMicro_comm (resume : Nat → WriteJob → Seq) (last : Option Word16) (bytes : List Byte) (kb : Nat)
    (j : WriteJob) (s : State) :
    streamMicro resume last bytes kb j (f s) = f (streamMicro resume last bytes kb j s) := by
  rw [streamMicro_eq, streamMicro_eq, hf.writeMicro_comm]
  cases (writeMicro j s).2 with
  | some j' => exact (hf.withSeq _ _).symm
  | none =>
    cases bytes[kb + 1]? with
    | some b => exact (hf.withSeq _ _).symm
    | none => simp only [Option.elim_none, hf.withSeq, hf.withLast]

/-- Out of WAIT, a micro-step of the command in progress does not see the change. -/
theorem Unseen.continueCommand_comm (s : State) (hs : s.seq ≠ .wait) :
    continueCommand (f s) = f (continueCommand s) := by
  have hseq := hf.seq s
  cases hq : s.seq with
  | wait => exact absurd hq hs
  | idle => rw [continueCommand_idle s hq, continueCommand_idle (f s) (hseq.trans hq)]
  | busWrite j =>
    rw [continueCommand_busWrite s j hq, continueCommand_busWrite (f s) j (hseq.trans hq), hf.writeMicro_comm,
      hf.withSeq]
  | busRead j =>
    rw [continueCommand_busRead s j hq, continueCommand_busRead (f s) j (hseq.trans hq), hf.readMicro_comm, hf.withSeq]
  | render m bytes kb j =>
    rw [continueCommand_render s m bytes kb j hq, continueCommand_render (f s) m bytes kb j (hseq.trans hq),
      hf.streamMicro_comm]
  | dispClear bytes kb j =>
    rw [continueCommand_dispClear s bytes kb j hq, continueCommand_dispClear (f s) bytes kb j (hseq.trans hq),
      hf.streamMicro_comm]

theorem Unseen.beginCommand_comm (q : Seq) (s : State) (hq : q ≠ .wait) : beginCommand q (f s) = f (beginCommand q s) :=
  (congrArg continueCommand (hf.withSeq q s).symm).trans (hf.continueCommand_comm (s.withSeq q) hq)

/-- A bus or encoder command does not see the change; a tick command may. -/
theorem Unseen.commandEffect_comm (i : Instr) (s : State)
    (hi : usesTickUnit i = true → commandEffect i (f s) = f (commandEffect i s)) :
    commandEffect i (f s) = f (commandEffect i s) := by
  cases i with
  | tickRead | tickClear | wait | ieSet | timerCfg => exact hi rfl
  | busWrite | busRead | dispClear => exact hf.beginCommand_comm _ s nofun
  | csAssert | csDeassert => exact (hf.setCs _ _ s).symm
  | dataDrive b => exact (hf.driveData b s).symm
  | clkSet b => exact (hf.setClock b s).symm
  | dataSample => simp only [commandEffect, State.active, hf.writeResult, hf.sampleDin, hf.din, hf.cs]
  | encode m => exact (hf.writeResult _ s).symm
  | render m =>
    simp only [commandEffect, hf.last, hf.params]
    split
    · rfl
    · exact hf.beginCommand_comm _ s nofun

theorem Unseen.raiseFault_comm (c : FaultCode) (w : Word24) (s : State) :
    raiseFault c w (f s) = f (raiseFault c w s) := by
  by_cases h : s.fault = 0
  · rw [raiseFault_first c w s h, raiseFault_first c w (f s) ((hf.fault s).trans h)]
    exact ((hf.withSeq .idle { s with fault := c.code, faultCmd := w }).trans
      (congrArg (State.withSeq .idle) (hf.withFault c.code w s))).symm
  · rw [raiseFault_standing c w s h, raiseFault_standing c w (f s) (hf.fault s ▸ h)]
    exact (hf.withSeq .idle s).symm

theorem Unseen.firstFault_comm (i : Instr) (s : State) : firstFault i (f s) = firstFault i s := by
  have hstarts : startsTransaction (f s) i = startsTransaction s i := by
    cases i with
    | render m => simp only [startsTransaction, hf.last]
    | _ => rfl
  rw [firstFault_eq, firstFault_eq, hstarts, State.busy, State.busy, hf.params, hf.cs]

/-- The issue of a command does not see the change, but of a tick command. -/
theorem Unseen.issue_comm (c : HostCmd) (s t : State)
    (hi : ∀ i, usesTickUnit i = true → c.context = .main → decode c.word = .instr i →
      commandEffect i (f s) = f (commandEffect i s))
    (h : issue c s = .next t) : issue c (f s) = .next (f t) := by
  obtain ⟨context, w⟩ := c
  cases context with
  | interrupt => cases h
  | main =>
    cases hw : decode w with
    | illegal why =>
      rw [issue_illegal w why _ hw] at h ⊢
      cases h
      exact congrArg _ (hf.raiseFault_comm ..)
    | instr i =>
      rw [issue_instr w i _ hw, exec_eq_firstFault] at h ⊢
      cases h
      rw [hf.firstFault_comm]
      cases firstFault i s with
      | none => exact congrArg _ (hf.commandEffect_comm i s fun htick => hi i htick rfl hw)
      | some c => exact congrArg _ (hf.raiseFault_comm c _ s)

/-- HOST's turn does not see the change, but of the tick unit in a WAIT or at the issue of a tick command. -/
theorem Unseen.hostTurn_comm (s t : State) (hwait : s.seq = .wait → continueCommand (f s) = f (continueCommand s))
    (hi : ∀ i rest, usesTickUnit i = true → s.aboutToIssue i = true →
      commandEffect i (f { s with program := rest }) = f (commandEffect i { s with program := rest }))
    (h : hostTurn s = .next t) : hostTurn (f s) = .next (f t) := by
  obtain ⟨hfault, hnext⟩ | ⟨-, hq, hp, hnext⟩ | ⟨c, rest, hfault, hq, hp, hnext⟩ | ⟨hfault, hq, hnext⟩ :=
    hostTurn_cases s <;> rw [hnext] at h
  · cases h
    exact hostTurn_faulted (f s) (hf.fault s ▸ hfault)
  · cases h
    exact hostTurn_nothing (f s) ((hf.seq s).trans hq) ((hf.program s).trans hp)
  · rw [hostTurn_issue (f s) c rest ((hf.fault s).trans hfault) ((hf.seq s).trans hq) ((hf.program s).trans hp),
      ← hf.withCommands]
    exact hf.issue_comm c _ t (fun i htick hmain hw => hi i rest htick
      ((aboutToIssue_iff i s).2 ⟨(canIssue_iff s).2 ⟨hq, hfault⟩, c, rest, hp, hmain, hw⟩)) h
  · cases h
    rw [hostTurn_continue (f s) ((hf.fault s).trans hfault) (hf.seq s ▸ hq)]
    by_cases hs : s.seq = .wait
    · rw [hwait hs]
    · rw [hf.continueCommand_comm s hs]

end Unseen

/-! ### A run is its turns (R58, R212) -/

/-- The state with other turns to come. -/
def State.withTurns (schedule : List Turn) (rounds : Nat) (s : State) : State :=
  { s with schedule := schedule, rounds := rounds }

theorem unseen_withTurns (ts : List Turn) (r : Nat) : Unseen (State.withTurns ts r) where
  setCs _ _ _ := rfl
  setClock _ _ := rfl
  driveData _ _ := rfl
  sampleDin _ _ := rfl
  writeResult _ _ := rfl
  withSeq _ _ := rfl
  withLast _ _ := rfl
  withCommands _ _ := rfl
  withFault _ _ _ := rfl
  params _ := rfl
  cs _ := rfl
  last _ := rfl
  seq _ := rfl
  din _ := rfl
  fault _ := rfl
  program _ := rfl

theorem timerClk_withTurns (ts : List Turn) (r : Nat) (s : State) :
    timerClk (s.withTurns ts r) = (timerClk s).withTurns ts r := by
  by_cases hten : s.ten = true
  · by_cases hroll : s.tcnt = s.top - 1
    · rw [timerClk_roll s hten hroll, timerClk_roll (s.withTurns ts r) hten hroll]
      rfl
    · rw [timerClk_count s hten hroll, timerClk_count (s.withTurns ts r) hten hroll]
      rfl
  · have hoff : s.ten = false := Bool.eq_false_iff.2 hten
    rw [timerClk_off s hoff, timerClk_off (s.withTurns ts r) hoff]

theorem tickService_withTurns (ts : List Turn) (r : Nat) (s : State) :
    tickService (s.withTurns ts r) = (tickService s).withTurns ts r := by
  by_cases hon : s.pend = true ∧ s.gie = true
  · obtain ⟨hpend, hgie⟩ := hon
    rw [tickService_on s hpend hgie, tickService_on (s.withTurns ts r) hpend hgie]
    rfl
  · have hoff : s.pend = false ∨ s.gie = false := by simpa only [not_and_or, Bool.not_eq_true] using hon
    rw [tickService_off s hoff, tickService_off (s.withTurns ts r) hoff]

theorem continueCommand_withTurns_wait (ts : List Turn) (r : Nat) (s : State) (hq : s.seq = .wait) :
    continueCommand (s.withTurns ts r) = (continueCommand s).withTurns ts r := by
  rw [continueCommand_wait s hq, continueCommand_wait (s.withTurns ts r) hq, apply_ite (State.withTurns ts r)]
  rfl

theorem commandEffect_withTurns_tick (ts : List Turn) (r : Nat) (i : Instr) (s : State) (hi : usesTickUnit i = true) :
    commandEffect i (s.withTurns ts r) = (commandEffect i s).withTurns ts r := by
  cases i with
  | tickRead | tickClear | wait | ieSet | timerCfg => rfl
  | _ => cases hi

/-- No turn sees which turns are to come. -/
theorem takeTurn_withTurns (ts : List Turn) (r : Nat) (x : Turn) (s t : State) (h : takeTurn x s = .next t) :
    takeTurn x (s.withTurns ts r) = .next (t.withTurns ts r) := by
  cases x with
  | host =>
    exact (unseen_withTurns ts r).hostTurn_comm s t (continueCommand_withTurns_wait ts r s)
      (fun i rest hi _ => commandEffect_withTurns_tick ts r i { s with program := rest } hi) h
  | timerClk =>
    cases h
    exact congrArg _ (timerClk_withTurns ts r s)
  | tickService =>
    cases h
    exact congrArg _ (tickService_withTurns ts r s)
  | readPort p | powerOn =>
    cases h
    rfl

theorem runTurns_withTurns (ts : List Turn) (r : Nat) (xs : List Turn) (s t : State) (h : runTurns xs s = .next t) :
    runTurns xs (s.withTurns ts r) = .next (t.withTurns ts r) := by
  induction xs generalizing s with
  | nil =>
    cases h
    rfl
  | cons x xs ih =>
    obtain ⟨u, hu, hrun⟩ := runTurns_cons_next x xs s t h
    simp only [runTurns, takeTurn_withTurns ts r x s u hu, ih u hrun]

/-- The turns of a state, taken or passed over, are those of its schedule and its rounds. -/
theorem turns_congr (k : Nat) {s t : State} (hsched : s.schedule = t.schedule) (hround : s.rounds = t.rounds) :
    State.upcoming k s = State.upcoming k t ∧ (State.advanceBy k s).schedule = (State.advanceBy k t).schedule
      ∧ (State.advanceBy k s).rounds = (State.advanceBy k t).rounds := by
  induction k generalizing s t with
  | zero => exact ⟨rfl, hsched, hround⟩
  | succ k ih =>
    have hcoming : s.comingTurns = t.comingTurns := by rw [State.comingTurns, State.comingTurns, hsched, hround]
    have hnext : s.nextTurn = t.nextTurn := by rw [State.nextTurn, State.nextTurn, hcoming, hround]
    have hsched' : s.advance.schedule = t.advance.schedule := by rw [advance_schedule, advance_schedule, hcoming]
    have hround' : s.advance.rounds = t.advance.rounds := by rw [advance_rounds, advance_rounds, hsched, hround]
    obtain ⟨hup, hs, hr⟩ := ih hsched' hround'
    exact ⟨congrArg₂ List.cons hnext hup, hs, hr⟩

theorem core_run_succ (k : Nat) (s t : State) (h : step s = .next t) :
    Host.Core.run core (k + 1) s = Host.Core.run core k t := by
  have hcore : core.step s = .next t := h
  simp only [Host.Core.run, hcore]

/-- Settles O10, by induction on the steps: each takes the next turn, which sees nothing of the turns to come. -/
theorem runIsItsTurns : Obligations.RunIsItsTurns := by
  intro k
  induction k with
  | zero =>
    intro s t h
    cases h
    rfl
  | succ k ih =>
    intro s t h
    obtain ⟨u, hu, hrun⟩ := runTurns_cons_next _ _ s t h
    have hstep : step s = .next (u.withTurns s.advance.schedule s.advance.rounds) :=
      takeTurn_withTurns s.advance.schedule s.advance.rounds s.nextTurn s u hu
    have hrun' := runTurns_withTurns s.advance.schedule s.advance.rounds _ u t hrun
    obtain ⟨hup, hsched, hround⟩ := turns_congr k (s := u.withTurns s.advance.schedule s.advance.rounds)
      (t := s.advance) rfl rfl
    rw [← hup] at hrun'
    have hk := ih _ _ hrun'
    rw [hsched, hround] at hk
    exact (core_run_succ k s _ hstep).trans hk

/-! ### TIMER, SERVICE and the bus (R59) -/

theorem unseen_withoutTicks : Unseen State.withoutTicks where
  setCs _ _ _ := rfl
  setClock _ _ := rfl
  driveData _ _ := rfl
  sampleDin _ _ := rfl
  writeResult _ _ := rfl
  withSeq _ _ := rfl
  withLast _ _ := rfl
  withCommands _ _ := rfl
  withFault _ _ _ := rfl
  params _ := rfl
  cs _ := rfl
  last _ := rfl
  seq _ := rfl
  din _ := rfl
  fault _ := rfl
  program _ := rfl

/-- What the rest of a run needs to leave HOST apart from the ticks: no WAIT in progress, and a program in main context
with neither TICK_READ nor WAIT in it. -/
structure State.TickFree (s : State) : Prop where
  notWaiting : s.seq ≠ .wait
  inMain : s.programInMain
  noTickRead : s.programAvoids .tickRead
  noWait : s.programAvoids .wait

theorem continueCommand_program (s : State) : (continueCommand s).program = s.program :=
  (congrArg State.program (continueCommand_frame s) :)

theorem streamMicro_notWaiting (resume : Nat → WriteJob → Seq) (last : Option Word16) (bytes : List Byte) (kb : Nat)
    (j : WriteJob) (s : State) (hresume : ∀ kb' j', resume kb' j' ≠ .wait) :
    (streamMicro resume last bytes kb j s).seq ≠ .wait := by
  obtain ⟨j', -, hs⟩ | ⟨b, -, -, hs⟩ | ⟨-, -, hs⟩ := streamMicro_cases resume last bytes kb j s <;> rw [hs]
  · exact hresume kb j'
  · exact hresume (kb + 1) _
  · exact nofun

/-- Only the issue of a WAIT enters one. -/
theorem continueCommand_notWaiting (s : State) (hs : s.seq ≠ .wait) : (continueCommand s).seq ≠ .wait := by
  cases hq : s.seq with
  | wait => exact absurd hq hs
  | idle => rwa [continueCommand_idle s hq]
  | busWrite j =>
    rw [continueCommand_busWrite s j hq]
    cases (writeMicro j s).2 <;> exact nofun
  | busRead j =>
    rw [continueCommand_busRead s j hq]
    cases (readMicro j s).2 <;> exact nofun
  | render m bytes kb j =>
    rw [continueCommand_render s m bytes kb j hq]
    exact streamMicro_notWaiting _ _ _ _ _ s nofun
  | dispClear bytes kb j =>
    rw [continueCommand_dispClear s bytes kb j hq]
    exact streamMicro_notWaiting _ _ _ _ _ s nofun

theorem beginCommand_notWaiting (q : Seq) (s : State) (hq : q ≠ .wait) : (beginCommand q s).seq ≠ .wait :=
  continueCommand_notWaiting (s.withSeq q) hq

theorem commandEffect_notWaiting (i : Instr) (s : State) (hi : i ≠ .wait) (hs : s.seq ≠ .wait) :
    (commandEffect i s).seq ≠ .wait := by
  cases i with
  | wait => exact absurd rfl hi
  | busWrite | busRead | dispClear => exact beginCommand_notWaiting _ s nofun
  | render m =>
    rw [commandEffect]
    split
    · exact hs
    · exact beginCommand_notWaiting _ s nofun
  | _ => exact hs

theorem commandEffect_program (i : Instr) (s : State) : (commandEffect i s).program = s.program := by
  cases i with
  | busWrite | busRead | dispClear => exact continueCommand_program _
  | render m =>
    rw [commandEffect]
    split
    · rfl
    · exact continueCommand_program _
  | _ => rfl

/-- A command that is about to be issued stands in the program. -/
theorem not_programAvoids_of_aboutToIssue {i : Instr} {s : State} (h : s.aboutToIssue i = true) :
    ¬s.programAvoids i := by
  obtain ⟨-, c, rest, hp, -, hw⟩ := (aboutToIssue_iff i s).1 h
  exact fun havoid => havoid c (hp ▸ List.mem_cons_self) hw

/-- HOST's turn leaves no more commands to issue than there were, and begins no WAIT of a program without one. -/
theorem hostTurn_tickFree (s t : State) (hs : s.TickFree) (h : hostTurn s = .next t) : t.TickFree := by
  obtain ⟨hseq, hmain, hread, hwait⟩ := hs
  have hkeep : t.seq ≠ .wait ∧ ∀ c ∈ t.program, c ∈ s.program := by
    obtain rfl | ⟨c, w, -, rfl⟩ | ⟨i, hissue, -, rfl⟩ | ⟨-, -, rfl⟩ := hostTurn_next_cases s t h
    · exact ⟨hseq, fun _ hc => hc⟩
    · exact ⟨hseq, fun _ hc => List.mem_of_mem_tail hc⟩
    · refine ⟨commandEffect_notWaiting i _ ?_ hseq, fun _ hc => List.mem_of_mem_tail ?_⟩
      · rintro rfl
        exact not_programAvoids_of_aboutToIssue hissue hwait
      · rwa [commandEffect_program] at hc
    · exact ⟨continueCommand_notWaiting s hseq, fun _ hc => continueCommand_program s ▸ hc⟩
  obtain ⟨hseq', hsub⟩ := hkeep
  exact ⟨hseq', fun c hc => hmain c (hsub c hc), fun c hc => hread c (hsub c hc), fun c hc => hwait c (hsub c hc)⟩

/-- Apart from the ticks, HOST's turn of a tick-free state does not see them. -/
theorem hostTurn_withoutTicks (s t : State) (hs : s.TickFree) (h : hostTurn s = .next t) :
    hostTurn s.withoutTicks = .next t.withoutTicks := by
  refine unseen_withoutTicks.hostTurn_comm s t (fun hq => absurd hq hs.notWaiting) (fun i rest hi hissue => ?_) h
  cases i with
  | tickRead => exact absurd hs.noTickRead (not_programAvoids_of_aboutToIssue hissue)
  | wait => exact absurd hs.noWait (not_programAvoids_of_aboutToIssue hissue)
  | tickClear => simp [commandEffect, writeTick, State.withoutTicks]
  | ieSet | timerCfg => rfl
  | _ => cases hi

/-- HOST's turn of a tick-free state is not refused. -/
theorem hostTurn_next_of_tickFree (s : State) (hs : s.TickFree) : ∃ t, hostTurn s = .next t := by
  obtain ⟨-, hnext⟩ | ⟨⟨-, c, rest, hp, hc⟩, -⟩ := hostTurn_outcome s
  · exact hnext
  · exact nomatch (hs.inMain c (hp ▸ List.mem_cons_self)).symm.trans hc

theorem tickFree_of_withoutTicks_eq {s t : State} (h : t.withoutTicks = s.withoutTicks) (hs : s.TickFree) :
    t.TickFree := by
  have hseq : t.seq = s.seq := (congrArg State.seq h :)
  have hp : t.program = s.program := (congrArg State.program h :)
  obtain ⟨hwaiting, hmain, hread, hwait⟩ := hs
  exact ⟨hseq ▸ hwaiting, by rwa [State.programInMain, hp], by rwa [State.programAvoids, hp],
    by rwa [State.programAvoids, hp]⟩

/-- HOST's turns of two tick-free states that differ in the ticks alone end in two such states. -/
theorem hostTurn_of_withoutTicks_eq {s v : State} (heq : s.withoutTicks = v.withoutTicks) (hs : s.TickFree) :
    ∃ t u, hostTurn s = .next t ∧ hostTurn v = .next u ∧ t.withoutTicks = u.withoutTicks ∧ t.TickFree := by
  have hv := tickFree_of_withoutTicks_eq heq.symm hs
  obtain ⟨t, ht⟩ := hostTurn_next_of_tickFree s hs
  obtain ⟨u, hu⟩ := hostTurn_next_of_tickFree v hv
  have ht' := hostTurn_withoutTicks s t hs ht
  rw [heq, hostTurn_withoutTicks v u hv hu] at ht'
  exact ⟨t, u, ht, hu, (Host.Outcome.next.inj ht').symm, hostTurn_tickFree s t hs ht⟩

/-- The run and its HOST turns alone, from two states that differ in the ticks alone, end in two such states. -/
theorem runTurns_hostOnly (ts : List Turn) (s v : State) (hts : ∀ x ∈ ts, x ≠ .powerOn)
    (heq : s.withoutTicks = v.withoutTicks) (hs : s.TickFree) :
    ∃ t u, runTurns ts s = .next t ∧ runTurns (ts.filter fun x => decide (x = .host)) v = .next u
      ∧ t.withoutTicks = u.withoutTicks := by
  induction ts generalizing s v with
  | nil => exact ⟨s, v, rfl, rfl, heq⟩
  | cons x ts ih =>
    obtain ⟨hx, hrest⟩ := List.forall_mem_cons.1 hts
    by_cases hhost : x = .host
    · subst hhost
      obtain ⟨s', v', hs', hv', heq', hfree⟩ := hostTurn_of_withoutTicks_eq heq hs
      obtain ⟨t, u, ht, hu, htu⟩ := ih s' v' hrest heq' hfree
      exact ⟨t, u, by simp only [runTurns, takeTurn, hs', ht],
        by simp only [List.filter_cons, decide_true, if_true, runTurns, takeTurn, hv', hu], htu⟩
    · obtain ⟨s', hs', heq'⟩ := takeTurn_other x hx hhost s
      obtain ⟨t, u, ht, hu, htu⟩ := ih s' v hrest (heq'.trans heq) (tickFree_of_withoutTicks_eq heq' hs)
      exact ⟨t, u, by simp only [runTurns, hs', ht], by simpa [List.filter_cons, hhost] using hu, htu⟩

/-- Settles O33: the ticks are unseen by every HOST turn of the run, and the other turns change nothing else. -/
theorem ticksDoNotTouchTheBus : Obligations.TicksDoNotTouchTheBus :=
  fun ts s hts hseq hmain hread hwait => runTurns_hostOnly ts s s hts rfl ⟨hseq, hmain, hread, hwait⟩

end Sys2Proof.Machine

/-! ### Every agent's turn comes again (R153) -/

namespace Sys2Proof.Machine

theorem freeRound_ne_nil (r : Nat) : freeRound r ≠ [] := by
  simp [freeRound]

/-- Passing over fixed turns. -/
theorem advanceBy_length (ts rest : List Turn) (s : State) (h : s.schedule = ts ++ rest) :
    State.advanceBy ts.length s = { s with schedule := rest } := by
  induction ts generalizing s with
  | nil =>
    subst h
    rfl
  | cons x ts ih =>
    show State.advanceBy ts.length s.advance = _
    rw [advance_cons s x (ts ++ rest) h, ih { s with schedule := ts ++ rest } rfl]

theorem turnAt_length (ts rest : List Turn) (x : Turn) (s : State) (h : s.schedule = ts ++ x :: rest) :
    s.turnAt ts.length = x := by
  rw [State.turnAt, advanceBy_length ts (x :: rest) s h]
  exact nextTurn_cons _ x rest rfl

/-- With no turn fixed, the next round's turns are those to come. -/
theorem advance_beginRound (s : State) (h : s.schedule = []) :
    s.advance = (s.withTurns (freeRound s.rounds) (s.rounds + 1)).advance
      ∧ s.nextTurn = (s.withTurns (freeRound s.rounds) (s.rounds + 1)).nextTurn := by
  obtain ⟨x, ts, hround⟩ := List.exists_cons_of_ne_nil (freeRound_ne_nil s.rounds)
  simp [State.advance, State.nextTurn, State.comingTurns, State.withTurns, h, hround]

theorem upcoming_length (ts : List Turn) (s : State) : State.upcoming ts.length { s with schedule := ts } = ts := by
  induction ts generalizing s with
  | nil => rfl
  | cons x ts ih =>
    show State.nextTurn _ :: State.upcoming ts.length (State.advance _) = _
    rw [nextTurn_cons { s with schedule := x :: ts } x ts rfl, advance_cons { s with schedule := x :: ts } x ts rfl]
    exact congrArg _ (ih s)

theorem firstTurns_turnAt (k : Nat) (s : State) : firstTurns s.turnAt k = State.upcoming k s := by
  induction k generalizing s with
  | zero => rfl
  | succ k ih =>
    rw [State.upcoming, ← ih s.advance, firstTurns, List.range_succ_eq_map, List.map_cons, List.map_map]
    rfl

/-- The guaranteed turn of a round comes, and with it the round ends. -/
theorem round_ends (s : State) (h : s.schedule = []) :
    ∃ k, s.turnAt k = guaranteedTurn s.rounds
      ∧ State.advanceBy (k + 1) s = s.withTurns [] (s.rounds + 1) := by
  obtain ⟨hadvance, hnext⟩ := advance_beginRound s h
  refine ⟨(Config.freeTurns s.rounds).length, ?_, ?_⟩
  · have hturn := turnAt_length (Config.freeTurns s.rounds) [] (guaranteedTurn s.rounds)
      (s.withTurns (freeRound s.rounds) (s.rounds + 1)) rfl
    rw [← hturn]
    cases (Config.freeTurns s.rounds).length with
    | zero => exact hnext
    | succ k => exact congrArg (fun u => (State.advanceBy k u).nextTurn) hadvance
  · have hall := advanceBy_length (freeRound s.rounds) [] (s.withTurns (freeRound s.rounds) (s.rounds + 1))
      (List.append_nil _).symm
    rw [freeRound, List.length_append, List.length_singleton] at hall
    exact (congrArg (State.advanceBy _) hadvance).trans hall

/-- Any number of rounds comes to its end. -/
theorem rounds_end (n : Nat) (s : State) (h : s.schedule = []) :
    ∃ k, n ≤ k ∧ State.advanceBy k s = s.withTurns [] (s.rounds + n) := by
  induction n with
  | zero => exact ⟨0, le_rfl, by rw [← h]; rfl⟩
  | succ n ih =>
    obtain ⟨k, hk, hadvance⟩ := ih
    obtain ⟨j, -, hj⟩ := round_ends (s.withTurns [] (s.rounds + n)) rfl
    refine ⟨k + (j + 1), by omega, ?_⟩
    rw [advanceBy_add, hadvance, hj]
    rfl

/-- Each of the three agents is guaranteed a turn in one of any three rounds. -/
theorem exists_guaranteedTurn (a : Turn) (ha : isAgentTurn a = true) (r : Nat) :
    ∃ j, guaranteedTurn (r + j) = a := by
  cases a with
  | host =>
    have hmod : (r + (3 - r % 3)) % 3 = 0 := by omega
    exact ⟨3 - r % 3, by simp only [guaranteedTurn, hmod]⟩
  | timerClk =>
    have hmod : (r + (4 - r % 3)) % 3 = 1 := by omega
    exact ⟨4 - r % 3, by simp only [guaranteedTurn, hmod]⟩
  | tickService =>
    have hmod : (r + (5 - r % 3)) % 3 = 2 := by omega
    exact ⟨5 - r % 3, by simp only [guaranteedTurn, hmod]⟩
  | readPort | powerOn => cases ha

/-- The turn of every agent comes again after any number of turns. -/
theorem agentTurn_comes (s : State) (a : Turn) (ha : isAgentTurn a = true) (n : Nat) :
    ∃ m, n ≤ m ∧ s.turnAt m = a := by
  have hfixed := advanceBy_length s.schedule [] s (List.append_nil _).symm
  obtain ⟨j, hj⟩ := exists_guaranteedTurn a ha (s.rounds + n)
  obtain ⟨k, hk, hrounds⟩ := rounds_end (n + j) { s with schedule := [] } rfl
  obtain ⟨i, hturn, -⟩ := round_ends (State.withTurns [] (s.rounds + (n + j)) { s with schedule := [] }) rfl
  refine ⟨s.schedule.length + (k + i), by omega, ?_⟩
  rw [turnAt_add, hfixed, turnAt_add, hrounds]
  exact hturn.trans ((congrArg guaranteedTurn (Nat.add_assoc ..).symm).trans hj)

/-- Settles O11: a round ends in a guaranteed turn, and the rounds go through the agents in rotation. -/
theorem scheduleIsFairAndOtherwiseFree : Obligations.ScheduleIsFairAndOtherwiseFree :=
  ⟨agentTurn_comes, fun s => ⟨fun a ha n _ => agentTurn_comes s a ha n, fun k => firstTurns_turnAt k s⟩,
    upcoming_length⟩

end Sys2Proof.Machine

/-! ### Writes, reads and transactions on the bus (spec 41_bus.md R103, R110 to R112) -/

namespace Sys2Proof.Machine

/-- A whole write: the line asserted, the byte's bits sent, the line released (R110). -/
theorem write_completes (k : Nat) (byte : Byte) (s : State) (hb : s.busy = false) :
    setCs k true ((setCs k false s).sent (bitsBelow byte 8))
      = { s with dout := byte.getLsbD 0, sck := false, trace := s.trace ++ writeEvents k byte } := by
  simp only [setCs, State.sent, set_false_set_true s hb]
  simp [bitsBelow, writeEvents]

/-- Settles O24: after the assertion HOST's turns send the byte's bits and release the line. -/
theorem busWriteSendsByte : Obligations.BusWriteSendsByte := by
  intro s sel byte ⟨hq, hf, hb⟩ hsel
  refine ⟨_, exec_busWrite_free sel byte s hsel hb, rfl, rfl, ?_⟩
  rw [run_busWrite sel.toNat byte (setCs sel.toNat false s) hf hq, write_completes sel.toNat byte s hb]

/-- With SCK at 0, each bit sent has one rising edge, and the selected device latches it. -/
theorem deviceLatches_bitEvents (k : Nat) (bs : List Level) (dout : Level) (es : List PinEvent) :
    deviceLatches false dout (some k) (bs.flatMap bitEvents ++ es)
      = bs.map (fun b => (k, b)) ++ deviceLatches false (bs.getLastD dout) (some k) es := by
  induction bs generalizing dout with
  | nil => rfl
  | cons b bs ih =>
    simp only [List.flatMap_cons, bitEvents, List.cons_append, List.nil_append, deviceLatches, ih]
    simp [List.getLast?_cons]

/-- Settles O26: the first bit is latched only if its SCK(1) is a rising edge. -/
theorem deviceLatchesWrittenByte : Obligations.DeviceLatchesWrittenByte := by
  intro s sel byte ⟨hq, hf, hb⟩ hsel
  refine ⟨_, _, writeEvents sel.toNat byte, exec_busWrite_free sel byte s hsel hb,
    run_busWrite sel.toNat byte (setCs sel.toNat false s) hf hq, hf, ?_, fun hsck => ?_, fun hsck => ?_⟩
  · rw [write_completes sel.toNat byte s hb]
  · rw [hsck]
    exact (deviceLatches_bitEvents sel.toNat (bitsBelow byte 8) s.dout [.cs sel.toNat true]).trans (List.append_nil _)
  · rw [hsck]
    exact (deviceLatches_bitEvents sel.toNat (bitsBelow byte 7) (byte.getLsbD 7) [.cs sel.toNat true]).trans
      (List.append_nil _)

/-- One more bit, in the accumulator's RESULT_W bits. -/
theorem toNat_accumulate (p : Params) (acc : Word32) (b : Level) (hw : p.resultW ≤ 32)
    (hacc : 2 * acc.toNat + 1 < 2 ^ p.resultW) : (accumulate p acc b).toNat = 2 * acc.toNat + b.toNat := by
  have hb := b.toNat_le
  have hpow : 2 ^ p.resultW ≤ 2 ^ 32 := Nat.pow_le_pow_right (by decide) hw
  have hlevel : (levelWord b).toNat = b.toNat := by cases b <;> rfl
  have hshift : acc.toNat <<< 1 = 2 * acc.toNat := by rw [Nat.shiftLeft_eq, pow_one, Nat.mul_comm]
  have hor := Nat.shiftLeft_add_eq_or_of_lt (i := 1) (b := b.toNat) (by omega) acc.toNat
  rw [accumulate, truncTo_toNat _ hw, BitVec.toNat_or, BitVec.toNat_shiftLeft, hlevel,
    Nat.mod_eq_of_lt (by omega : acc.toNat <<< 1 < 2 ^ 32), ← hor, hshift, Nat.mod_eq_of_lt (by omega)]

/-- Bits that fit the accumulator are read whole, the first as the highest (R51, R111). -/
theorem toNat_foldl_accumulate (p : Params) (hw : p.resultW ≤ 32) (bs : List Level) (acc : Word32) (k : Nat)
    (hacc : acc.toNat < 2 ^ k) (hk : k + bs.length ≤ p.resultW) :
    (bs.foldl (accumulate p) acc).toNat = bs.foldl (fun v b => 2 * v + b.toNat) acc.toNat
      ∧ bs.foldl (fun v b => 2 * v + b.toNat) acc.toNat < 2 ^ (k + bs.length) := by
  induction bs generalizing acc k with
  | nil => exact ⟨rfl, hacc⟩
  | cons b bs ih =>
    have hpow : 2 ^ (k + 1) ≤ 2 ^ p.resultW := Nat.pow_le_pow_right (by decide) (by simp at hk; omega)
    have hb := b.toNat_le
    have hbit := toNat_accumulate p acc b hw (by omega)
    have hstep := ih (accumulate p acc b) (k + 1) (by omega) (by simp at hk; omega)
    rwa [hbit, Nat.add_assoc, Nat.add_comm 1] at hstep

theorem length_drawnLevels (n : Nat) (fixed : List Level) (d : Nat) : (drawnLevels n fixed d).length = n := by
  induction n generalizing fixed d with
  | zero => rfl
  | succ n ih => exact congrArg (· + 1) (ih fixed.tail (d + 1))

theorem length_samples (n : Nat) (s : State) : (s.samples n).length = n := length_drawnLevels ..

/-- A whole read: the line asserted, the bits clocked in, the line released (R111). -/
theorem read_completes (k n : Nat) (s : State) (hb : s.busy = false) :
    setCs k true ((setCs k false s).clockedIn k n)
      = { s with
          sck := if n = 0 then s.sck else false, dinInput := s.dinInput.drop n, draws := s.draws + n
          trace := s.trace ++ readEvents k (s.samples n) } := by
  simp only [setCs, State.clockedIn, set_false_set_true s hb]
  simp [readEvents, State.samples]

/-- What a read of `n` bits leaves in RESULT is the value of its samples, which has `n` bits. -/
theorem read_value (p : Params) (n : Nat) (s : State) (hw : p.resultW ≤ 32) (hn : n ≤ p.resultW) :
    truncTo p.resultW ((s.samples n).foldl (accumulate p) 0) = BitVec.ofNat 32 (bitsValue (s.samples n))
      ∧ bitsValue (s.samples n) < 2 ^ n := by
  obtain ⟨hvalue, hlt⟩ := toNat_foldl_accumulate p hw (s.samples n) 0 0 Nat.one_pos
    (by rwa [length_samples, Nat.zero_add])
  rw [length_samples, Nat.zero_add] at hlt
  refine ⟨?_, hlt⟩
  rw [truncTo, hvalue, Nat.mod_eq_of_lt (hlt.trans_le (Nat.pow_le_pow_right (by decide) hn))]
  rfl

/-- Settles O27: the read's bits fill the accumulator from its lowest bit, and none is lost. -/
theorem busReadReturnsSamples : Obligations.BusReadReturnsSamples := by
  intro s sel n ⟨hq, hf, hb⟩ hp hsel hn
  obtain ⟨-, -, -, hw, -⟩ := (params_wf_iff s.params).1 hp
  obtain ⟨hvalue, hlt⟩ := read_value s.params n.toNat s hw hn
  have hrun := run_readBits n.toNat (ReadJob.start sel.toNat n.toNat) (setCs sel.toNat false s) hf hq
  have hzero : n = 0 ↔ n.toNat = 0 := BitVec.toNat_inj.symm
  refine ⟨_, exec_busRead_free sel n s hsel hn hb, rfl, rfl, ?_, hlt⟩
  simp only [hzero, ← hvalue]
  exact hrun.trans (congrArg (fun u => Host.Outcome.next (writeResult _ u)) (read_completes sel.toNat n.toNat s hb))

theorem busy_of_low {s : State} {k : Nat} (h : s.cs[k]? = some false) : s.busy = true :=
  List.contains_iff_mem.2 (List.mem_of_getElem? h)

/-- Settles O28: the asserted line is low until that line is driven again, and a low line makes the bus busy. -/
theorem csAssertOpensTransaction : Obligations.CsAssertOpensTransaction := by
  intro s sel
  refine ⟨fun w => decode_eq_instr_iff w _, exec_csAssert_free sel s,
    fun hlt => busy_of_low (List.getElem?_set_self hlt), fun k v hlow hk => busy_of_low ((List.getElem?_set_ne hk).trans hlow),
    fun hsel => ?_, fun hsel hb => ?_⟩
  · simp [exec, execCsAssert, selectorExists, Nat.not_lt.2 hsel]
  · simp [exec, execCsAssert, selectorExists, hsel, hb]

end Sys2Proof.Machine

/-! ### The encoder's and the host's statements -/

namespace Sys2Proof.Machine

/-- Settles O51: RENDER streams its seven bytes to the display. -/
theorem renderSendsSevenWrites : Obligations.RenderSendsSevenWrites := by
  intro s m hready@⟨_, _, hb⟩ hm hlast
  exact ⟨_, exec_render_due m s hm hlast hb, rfl, rfl, run_render m s hready⟩

theorem dbyte_blank (p : Params) (d : Nat) : dbyte p d true = p.blankByte := rfl

theorem toNat_dbyte_binary (p : Params) (d : Nat) (hp : p.digitStyle = .binary) (hd : d ≤ 9) :
    (dbyte p d false).toNat = d := by
  simp only [dbyte, hp, Bool.false_eq_true, if_false, BitVec.toNat_ofNat]
  omega

theorem toNat_dbyte_ascii (p : Params) (d : Nat) (hp : p.digitStyle = .ascii) (hd : d ≤ 9) :
    (dbyte p d false).toNat = 0x30 + d := by
  have hzero : (0x30 : Byte).toNat = 0x30 := rfl
  simp only [dbyte, hp, Bool.false_eq_true, if_false, BitVec.toNat_add, BitVec.toNat_ofNat, hzero]
  omega

/-- Settles O52: a digit is blank exactly below its place, and else its byte is its value or its character. -/
theorem renderBytesOfNumber : Obligations.RenderBytesOfNumber := by
  intro p m hm
  obtain ⟨h3, h2, h1, h0⟩ := digits_le m.toNat
  have hd3 : (digits m.toNat).d3 = m.toNat / 1000 := Nat.mod_eq_of_lt (by omega)
  have hshow3 : 1000 ≤ m.toNat → blank3 (digits m.toNat).d3 = false := fun h =>
    Bool.eq_false_iff.2 fun hblank => Nat.not_lt.2 h ((blank3_digits _ hm).1 hblank)
  have hshow2 : 100 ≤ m.toNat → blank2 (digits m.toNat).d3 (digits m.toNat).d2 = false := fun h =>
    Bool.eq_false_iff.2 fun hblank => Nat.not_lt.2 h ((blank2_digits _ hm).1 hblank)
  refine ⟨_, _, _, _, rfl, fun h => ?_, fun h => ?_, fun hp => ⟨fun h => ?_, fun h => ?_, ?_, ?_⟩,
    fun hp => ⟨fun h => ?_, fun h => ?_, ?_, ?_⟩⟩
  · rw [(blank3_digits _ hm).2 h, dbyte_blank]
  · rw [(blank2_digits _ hm).2 h, dbyte_blank]
  · rw [hshow3 h, toNat_dbyte_binary p _ hp h3, hd3]
  · rw [hshow2 h]
    exact toNat_dbyte_binary p _ hp h2
  · exact toNat_dbyte_binary p _ hp h1
  · exact toNat_dbyte_binary p _ hp h0
  · rw [hshow3 h, toNat_dbyte_ascii p _ hp h3, hd3]
  · rw [hshow2 h]
    exact toNat_dbyte_ascii p _ hp h2
  · exact toNat_dbyte_ascii p _ hp h1
  · exact toNat_dbyte_ascii p _ hp h0

/-- Settles O54: the first RENDER leaves its number in LAST, so the second has no effect. -/
theorem renderTwiceSendsOnce : Obligations.RenderTwiceSendsOnce := by
  intro s m hready@⟨hq, hf, hb⟩ hm hlast
  have hfirst : runTurns (hostTurns 183) (s.withProgram [.render m, .render m])
      = runTurns (hostTurns 1) (((s.displayed (renderBytes s.params m)).withLast (some m)).withProgram [.render m]) :=
    run_hostTurns_command _ [.render m] 181 1 s _ _ hf hq
      (exec_render_due m (s.withProgram [.render m]) hm hlast hb) (run_render m (s.withProgram [.render m]) hready)
  have hdone := ready_displayed_withLast (renderBytes s.params m) (some m) s hready
  exact ⟨_, hfirst.trans (run_render_cached_last m _ hdone hm rfl), finished_of_ready _ hdone, rfl, rfl⟩

theorem period_le (h : HostParams) : period h ≤ 1000 := Nat.div_le_self ..

/-- One PERIOD more, in the 32-bit container, is one PERIOD more in TICK's own width. -/
theorem truncTo_add_period (w : Nat) (hw : w ≤ 32) (h : HostParams) (v : Word32) :
    (truncTo w (v + BitVec.ofNat 32 (period h))).toNat = (v.toNat + period h) % 2 ^ w := by
  have hperiod : period h % 2 ^ 32 = period h := Nat.mod_eq_of_lt ((period_le h).trans_lt (by decide))
  rw [truncTo_toNat w hw, BitVec.toNat_add, BitVec.toNat_ofNat, hperiod]
  exact Nat.mod_mod_of_dvd _ (pow_dvd_pow 2 hw)

/-- Settles O57: the check adds one PERIOD if it is due, whatever `now` is. -/
theorem dueCheckAdvancesOnePeriod : Obligations.DueCheckAdvancesOnePeriod := by
  intro p h now r hp
  refine ⟨fun hle => ?_, fun hlt => ?_⟩
  · have hdue : r.due now = true := decide_eq_true hle
    rw [RefreshSchedule.check, RefreshSchedule.commands, hdue]
    exact ⟨truncTo_add_period _ (tickW_le_of_wf hp) h r.nextDue, rfl⟩
  · have hdue : r.due now = false := decide_eq_false (Nat.not_le.2 hlt)
    rw [RefreshSchedule.check, RefreshSchedule.commands, hdue]
    exact ⟨rfl, rfl⟩

end Sys2Proof.Machine

/-! ### WAIT, and its end (spec 42_tick.md R142, R156) -/

namespace Sys2Proof.Machine

/-- HOST's turn ends a WAIT that no SLEEP holds (R142). -/
theorem hostTurn_awake (s : State) (hf : s.fault = 0) (hq : s.seq = .wait) (hsleep : s.sleep = false) :
    hostTurn s = .next (s.withSeq .idle) := by
  rw [hostTurn_continue s hf (hq ▸ nofun), continueCommand_wait s hq, hsleep]
  rfl

/-- A pending service, and HOST's turn after it, end a WAIT. -/
theorem run_service_host (s : State) (hf : s.fault = 0) (hq : s.seq = .wait) (hpend : s.pend = true)
    (hgie : s.gie = true) :
    runTurns [.tickService, .host] s = .next { s with
      tick := truncTo s.params.tickW (s.tickValue + 1), sleep := false, pend := false, seq := .idle } := by
  have hawake := hostTurn_awake
    { s with tick := truncTo s.params.tickW (s.tickValue + 1), sleep := false, pend := false } hf hq rfl
  simp only [runTurns, takeTurn, tickService_on s hpend hgie, hawake]
  rfl

/-- Settles O36: SLEEP holds HOST until a service clears it, and then HOST's turn ends the command. -/
theorem waitParksUntilService : Obligations.WaitParksUntilService := by
  intro s hf
  refine ⟨fun w => decode_eq_instr_iff w .wait, rfl, hostTurn_asleep _ rfl rfl, by rw [timerClk_frame],
    fun hpend hgie => ?_⟩
  exact run_service_host { s with sleep := true, seq := .wait } hf rfl hpend hgie

/-- Settles O37: the TIMER turns reach the roll-over, which the service then takes. -/
theorem waitEndsAtNextRollOver : Obligations.WaitEndsAtNextRollOver := by
  intro s hq _ hf hgie hten hlt
  rw [runTurns_append _ _ _ _ (run_timerClk_rollOver s hten hlt)]
  exact run_service_host { s with tcnt := 0, pend := true } hf hq rfl hgie

/-- A turn of a held WAIT, neither a power-on nor an enabled service, holds it. -/
theorem takeTurn_asleep (x : Turn) (hx : x ≠ .powerOn) (s t : State) (hq : s.seq = .wait) (hsleep : s.sleep = true)
    (hx' : ¬(x = .tickService ∧ s.serviceEnabled = true)) (h : takeTurn x s = .next t) :
    t.seq = .wait ∧ t.sleep = true := by
  obtain ⟨rfl, -⟩ | ⟨-, hhost⟩ | ⟨-, rfl⟩ | ⟨hx, rfl⟩ := takeTurn_cases x hx s t h
  · exact ⟨hq, hsleep⟩
  · rw [hostTurn_asleep s hq hsleep] at hhost
    cases hhost
    exact ⟨hq, hsleep⟩
  · rw [timerClk_frame]
    exact ⟨hq, hsleep⟩
  · rw [tickService, if_neg fun he => hx' ⟨hx, he⟩]
    exact ⟨hq, hsleep⟩

/-- A held WAIT that is over has had a service. -/
theorem services_of_wait_over (ts : List Turn) (s t : State) (hq : s.seq = .wait) (hsleep : s.sleep = true)
    (hts : ∀ x ∈ ts, x ≠ .powerOn) (hrun : runTurns ts s = .next t) (ht : t.seq ≠ .wait) : 1 ≤ servicesTaken ts s := by
  induction ts generalizing s with
  | nil =>
    cases hrun
    exact absurd hq ht
  | cons x ts ih =>
    obtain ⟨hx, hrest⟩ := List.forall_mem_cons.1 hts
    obtain ⟨u, hu, hrun⟩ := runTurns_cons_next x ts s t hrun
    rw [servicesTaken_cons x ts s u hu]
    by_cases he : x = .tickService ∧ s.serviceEnabled = true
    · rw [if_pos he]
      omega
    · obtain ⟨hq', hsleep'⟩ := takeTurn_asleep x hx s u hq hsleep he hu
      exact (ih u hq' hsleep' hrest hrun).trans (Nat.le_add_left ..)

/-! ### A WAIT under weak fairness (R153, R156) -/

/-- `u` differs from `s`, a state in a WAIT, in the ticks alone, and its TCNT is below TOP. -/
structure StillWaits (s u : State) : Prop where
  rest : u.withoutTicks = s.withoutTicks
  timer : u.TimerOk

/-- A turn of a WAIT in progress leaves it in progress, or is HOST's with SLEEP = 0 and ends it. -/
theorem takeTurn_stillWaits (x : Turn) (hx : x ≠ .powerOn) (s u : State) (hq : s.seq = .wait) (hf : s.fault = 0)
    (hu : StillWaits s u) :
    (∃ v, takeTurn x u = .next v ∧ StillWaits s v)
      ∨ ∃ v, takeTurn x u = .next v ∧ v.withoutTicks = { s.withoutTicks with seq := .idle } := by
  have huq : u.seq = .wait := (congrArg State.seq hu.rest :).trans hq
  have huf : u.fault = 0 := (fault_of_withoutTicks_eq hu.rest).trans hf
  by_cases hhost : x = .host
  · subst hhost
    cases hsleep : u.sleep with
    | true => exact .inl ⟨u, hostTurn_asleep u huq hsleep, hu⟩
    | false =>
      exact .inr ⟨_, hostTurn_awake u huf huq hsleep, congrArg (State.withSeq .idle) hu.rest⟩
  · obtain ⟨v, hv, heq⟩ := takeTurn_other x hx hhost u
    exact .inl ⟨v, hv, heq.trans hu.rest, takeTurn_timerOk x u v hv hu.timer⟩

theorem runTurns_firstTurns_succ (σ : Nat → Turn) (k : Nat) (s u : State) (h : runTurns (firstTurns σ k) s = .next u) :
    runTurns (firstTurns σ (k + 1)) s = takeTurn (σ k) u := by
  rw [firstTurns_succ, runTurns_append _ _ s u h]
  simp only [runTurns]
  cases takeTurn (σ k) u <;> rfl

/-- The states of an endless run along `σ` from `s`. -/
def IsRun (σ : Nat → Turn) (s : State) (u : Nat → State) : Prop :=
  ∀ k, runTurns (firstTurns σ k) s = .next (u k)

theorem IsRun.turn {σ : Nat → Turn} {s : State} {u : Nat → State} (h : IsRun σ s u) (k : Nat) :
    takeTurn (σ k) (u k) = .next (u (k + 1)) :=
  (runTurns_firstTurns_succ σ k s (u k) (h k)).symm.trans (h (k + 1))

/-- What keeps an agent enabled until its turn, holds at a turn of that agent (R153). -/
theorem IsRun.fair_turn {σ : Nat → Turn} {s : State} {u : Nat → State} (h : IsRun σ s u) (hfair : WeaklyFair σ s)
    (a : Turn) (ha : isAgentTurn a = true) (P : State → Prop) (henabled : ∀ k, P (u k) → (u k).enabled a = true)
    (hkeep : ∀ k, P (u k) → σ k ≠ a → P (u (k + 1))) (n : Nat) (hn : P (u n)) : ∃ m, P (u m) ∧ σ m = a := by
  by_contra hnever
  have hall : ∀ m, n ≤ m → P (u m) := fun m hm =>
    Nat.le_induction hn (fun k _ hk => hkeep k hk fun hturn => hnever ⟨k, hk, hturn⟩) m hm
  obtain ⟨m, hm, hturn⟩ := hfair a ha n fun m hm => ⟨u m, h m, henabled m (hall m hm)⟩
  exact hnever ⟨m, hall m hm, hturn⟩

/-- A turn in a WAIT leaves the state as it is or ends the WAIT, or is one of TIMER or SERVICE. -/
theorem takeTurn_wait_cases (x : Turn) (hx : x ≠ .powerOn) (s t : State) (hq : s.seq = .wait)
    (h : takeTurn x s = .next t) :
    (t = s ∨ t = s.withSeq .idle) ∨ (x = .timerClk ∧ t = timerClk s) ∨ (x = .tickService ∧ t = tickService s) := by
  obtain ⟨rfl, -⟩ | ⟨-, hhost⟩ | htimer | hservice := takeTurn_cases x hx s t h
  · exact .inl (.inl rfl)
  · by_cases hf : s.fault = 0
    · rw [hostTurn_continue s hf (hq ▸ nofun), continueCommand_wait s hq] at hhost
      cases hhost
      split
      · exact .inl (.inl rfl)
      · exact .inl (.inr rfl)
    · rw [hostTurn_faulted s hf] at hhost
      cases hhost
      exact .inl (.inl rfl)
  · exact .inr (.inl htimer)
  · exact .inr (.inr hservice)

/-- Of the turns in a WAIT only TIMER's change TCNT. -/
theorem takeTurn_wait_tcnt (x : Turn) (hx : x ≠ .powerOn) (s t : State) (hq : s.seq = .wait)
    (h : takeTurn x s = .next t) (htimer : x ≠ .timerClk) : t.tcnt = s.tcnt := by
  obtain (rfl | rfl) | ⟨hx, -⟩ | ⟨-, rfl⟩ := takeTurn_wait_cases x hx s t hq h
  · rfl
  · rfl
  · exact absurd hx htimer
  · rw [tickService_frame]

/-- Of the turns in a WAIT only SERVICE's clear PEND. -/
theorem takeTurn_wait_pend (x : Turn) (hx : x ≠ .powerOn) (s t : State) (hq : s.seq = .wait)
    (h : takeTurn x s = .next t) (hservice : x ≠ .tickService) (hpend : s.pend = true) : t.pend = true := by
  obtain (rfl | rfl) | ⟨-, rfl⟩ | ⟨hx, -⟩ := takeTurn_wait_cases x hx s t hq h
  · exact hpend
  · exact hpend
  · exact (timerClk_pend s).elim (·.trans hpend) id
  · exact absurd hx hservice

/-- No turn in a WAIT sets SLEEP. -/
theorem takeTurn_wait_sleep (x : Turn) (hx : x ≠ .powerOn) (s t : State) (hq : s.seq = .wait)
    (h : takeTurn x s = .next t) (hsleep : s.sleep = false) : t.sleep = false := by
  obtain (rfl | rfl) | ⟨-, rfl⟩ | ⟨-, rfl⟩ := takeTurn_wait_cases x hx s t hq h
  · exact hsleep
  · exact hsleep
  · rw [timerClk_frame]
    exact hsleep
  · exact (tickService_flags s).elim (fun hkeep => (congrArg State.sleep hkeep).trans hsleep) And.left

section Waiting

variable {σ : Nat → Turn} {s : State} {u : Nat → State} (h : IsRun σ s u) (hfair : WeaklyFair σ s)
  (hσ : ∀ k, σ k ≠ .powerOn) (hwait : ∀ k, (u k).seq = .wait)

include h hfair hσ hwait

/-- In an endless WAIT with the timer running a roll-over comes: each TIMER turn brings TCNT nearer to TOP. -/
theorem pend_comes (hten : ∀ k, (u k).ten = true) (htimer : ∀ k, (u k).TimerOk) (htop : ∀ k, (u k).top = s.top) :
    ∃ k, (u k).pend = true := by
  have hdist : ∀ d k, s.top.toNat - (u k).tcnt.toNat ≤ d → ∃ m, (u m).pend = true := by
    intro d
    induction d with
    | zero =>
      intro k hk
      have hlt := htimer k (hten k)
      rw [htop k] at hlt
      bv_omega
    | succ d ih =>
      intro k hk
      obtain ⟨m, htcnt, hturn⟩ := h.fair_turn hfair .timerClk rfl (fun v => v.tcnt = (u k).tcnt)
        (fun m _ => hten m)
        (fun m hm hne => (takeTurn_wait_tcnt _ (hσ m) _ _ (hwait m) (h.turn m) hne).trans hm) k rfl
      have hnext : u (m + 1) = timerClk (u m) := by
        have hm := h.turn m
        rw [hturn] at hm
        exact (Host.Outcome.next.inj hm).symm
      by_cases hroll : (u m).tcnt = (u m).top - 1
      · exact ⟨m + 1, by rw [hnext, timerClk_roll _ (hten m) hroll]⟩
      · refine ih (m + 1) ?_
        have hlt := htimer m (hten m)
        rw [hnext, timerClk_count _ (hten m) hroll]
        rw [htop m] at hlt hroll
        show s.top.toNat - ((u m).tcnt + 1).toNat ≤ d
        bv_omega
  exact hdist _ 0 le_rfl

/-- In an endless WAIT a pending and enabled service comes, and clears SLEEP. -/
theorem wake_comes (hgie : ∀ k, (u k).gie = true) (k : Nat) (hk : (u k).pend = true) : ∃ m, (u m).sleep = false := by
  obtain ⟨m, hpend, hturn⟩ := h.fair_turn hfair .tickService rfl (fun v => v.pend = true)
    (fun m hm => (serviceEnabled_iff _).2 ⟨hm, hgie m⟩)
    (fun m hm hne => takeTurn_wait_pend _ (hσ m) _ _ (hwait m) (h.turn m) hne hm) k hk
  have hm := h.turn m
  rw [hturn, takeTurn, tickService_on _ hpend (hgie m)] at hm
  exact ⟨m + 1, by rw [← Host.Outcome.next.inj hm]⟩

/-- No WAIT with SLEEP = 0 is endless: HOST's turn comes and ends it. -/
theorem not_awake (hf : ∀ k, (u k).fault = 0) (k : Nat) (hk : (u k).sleep = false) : False := by
  have henabled : ∀ m, (u m).sleep = false → (u m).hostEnabled = true := fun m hm => by
    simp [State.hostEnabled, State.heldInWait, hf m, hwait m, hm]
  obtain ⟨m, hsleep, hturn⟩ := h.fair_turn hfair .host rfl (fun v => v.sleep = false) henabled
    (fun m hm _ => takeTurn_wait_sleep _ (hσ m) _ _ (hwait m) (h.turn m) hm) k hk
  have hm := h.turn m
  rw [hturn, takeTurn, hostTurn_awake _ (hf m) (hwait m) hsleep] at hm
  exact nomatch (congrArg State.seq (Host.Outcome.next.inj hm)).trans (hwait (m + 1))

end Waiting

/-- Along a schedule whose run never ends the WAIT, the WAIT goes on for ever. -/
theorem exists_waiting_run (σ : Nat → Turn) (s : State) (hq : s.seq = .wait) (hf : s.fault = 0) (htimer : s.TimerOk)
    (hσ : ∀ k, σ k ≠ .powerOn)
    (hnever : ¬∃ k t, runTurns (firstTurns σ k) s = .next t ∧ t.withoutTicks = { s.withoutTicks with seq := .idle }) :
    ∃ u, IsRun σ s u ∧ ∀ k, StillWaits s (u k) := by
  have hall : ∀ k, ∃ v, runTurns (firstTurns σ k) s = .next v ∧ StillWaits s v := by
    intro k
    induction k with
    | zero => exact ⟨s, rfl, rfl, htimer⟩
    | succ k ih =>
      obtain ⟨v, hv, hwaits⟩ := ih
      have hsucc := runTurns_firstTurns_succ σ k s v hv
      obtain ⟨w, hw, hwaits'⟩ | ⟨w, hw, hended⟩ := takeTurn_stillWaits (σ k) (hσ k) s v hq hf hwaits
      · exact ⟨w, hsucc.trans hw, hwaits'⟩
      · exact absurd ⟨k + 1, w, hsucc.trans hw, hended⟩ hnever
  choose u hu using hall
  exact ⟨u, fun k => (hu k).1, fun k => (hu k).2⟩

/-- Settles O38: in a WAIT that never ended a roll-over, a service and HOST's turn would come in this order. -/
theorem waitEndsUnderWeakFairness : Obligations.WaitEndsUnderWeakFairness := by
  refine ⟨services_of_wait_over, fun σ s hq hf hgie hten hlt hσ hfair => ?_⟩
  by_contra hnever
  obtain ⟨u, hrun, hwaits⟩ := exists_waiting_run σ s hq hf (fun _ => hlt) hσ hnever
  have hwait : ∀ k, (u k).seq = .wait := fun k => (congrArg State.seq (hwaits k).rest :).trans hq
  have htens : ∀ k, (u k).ten = true := fun k => (congrArg State.ten (hwaits k).rest :).trans hten
  have hgies : ∀ k, (u k).gie = true := fun k => (congrArg State.gie (hwaits k).rest :).trans hgie
  obtain ⟨k, hpend⟩ := pend_comes hrun hfair hσ hwait htens (fun k => (hwaits k).timer)
    fun k => (congrArg State.top (hwaits k).rest :)
  obtain ⟨m, hsleep⟩ := wake_comes hrun hfair hσ hwait hgies k hpend
  exact not_awake hrun hfair hσ hwait (fun k => (fault_of_withoutTicks_eq (hwaits k).rest).trans hf) m hsleep

end Sys2Proof.Machine

/-! ### With the interrupt disabled (R60, R255) -/

namespace Sys2Proof.Machine

/-- GIE = 0 stands through every turn that issues no IE_SET 1. -/
theorem takeTurn_gie_false (x : Turn) (hx : x ≠ .powerOn) (s t : State) (hgie : s.gie = false)
    (hno : (decide (x = .host) && s.aboutToIssue (.ieSet true)) = false) (h : takeTurn x s = .next t) :
    t.gie = false := by
  obtain ⟨rfl, -⟩ | ⟨rfl, hhost⟩ | ⟨-, rfl⟩ | ⟨-, rfl⟩ := takeTurn_cases x hx s t h
  · exact hgie
  · obtain ⟨hkeep | ⟨b, hissue, hb⟩, -⟩ := hostTurn_tickUnit s t hhost
    · exact hkeep.trans hgie
    · cases b with
      | false => exact hb
      | true => simp [hissue] at hno
  · rw [timerClk_frame]
    exact hgie
  · rw [tickService_frame]
    exact hgie

/-- Settles O48, by induction on the turns: GIE stays 0, and with it no service is enabled. -/
theorem noServiceWhileDisabled : Obligations.NoServiceWhileDisabled := by
  intro ts
  induction ts with
  | nil => exact fun _ _ _ _ => rfl
  | cons x ts ih =>
    intro s hgie hts hno
    obtain ⟨hx, hrest⟩ := List.forall_mem_cons.1 hts
    have hoff : ¬(x = .tickService ∧ s.serviceEnabled = true) := fun ⟨_, he⟩ =>
      Bool.false_ne_true (hgie.symm.trans ((serviceEnabled_iff s).1 he).2)
    obtain ⟨-, u, hu⟩ | ⟨-, hstop⟩ := takeTurn_outcome x s
    · rw [issuedIn_cons _ _ _ _ _ hu, Bool.or_eq_false_iff] at hno
      obtain ⟨hfirst, hno⟩ := hno
      rw [servicesTaken_cons x ts s u hu, if_neg hoff, ih u (takeTurn_gie_false x hx s u hgie hfirst hu) hrest hno]
    · simp only [servicesTaken, hstop, if_neg hoff]

/-- TIMER's turn counts modulo TOP, and sets PEND where the count reaches TOP (R150). -/
theorem timerClk_counts (s : State) (hten : s.ten = true) (hlt : s.tcnt < s.top) :
    (timerClk s).tcnt.toNat = (s.tcnt.toNat + 1) % s.top.toNat
      ∧ (timerClk s).pend = (s.pend || decide (s.top.toNat ≤ s.tcnt.toNat + 1)) := by
  by_cases hroll : s.tcnt = s.top - 1
  · have htop : s.tcnt.toNat + 1 = s.top.toNat := by bv_omega
    rw [timerClk_roll s hten hroll, htop, Nat.mod_self]
    simp
  · have hbelow : s.tcnt.toNat + 1 < s.top.toNat := by bv_omega
    rw [timerClk_count s hten hroll, Nat.mod_eq_of_lt hbelow]
    simp [Nat.not_le.2 hbelow]
    bv_omega

/-- Of the turns that issue no TIMER_CFG, and with GIE = 0, only TIMER's change the timer and PEND. -/
theorem takeTurn_timer_cases (x : Turn) (hx : x ≠ .powerOn) (s t : State) (hgie : s.gie = false)
    (hcfg : ∀ top, (decide (x = .host) && s.aboutToIssue (.timerCfg top)) = false) (h : takeTurn x s = .next t) :
    (x = .timerClk ∧ t = timerClk s)
      ∨ (x ≠ .timerClk ∧ t.ten = s.ten ∧ t.top = s.top ∧ t.tcnt = s.tcnt ∧ t.pend = s.pend) := by
  obtain ⟨rfl, p, rfl⟩ | ⟨rfl, hhost⟩ | htimer | ⟨rfl, rfl⟩ := takeTurn_cases x hx s t h
  · exact .inr ⟨nofun, rfl, rfl, rfl, rfl⟩
  · obtain ⟨-, hpend, -, ⟨hten, htop, htcnt⟩ | ⟨top, hissue⟩, -⟩ := hostTurn_tickUnit s t hhost
    · exact .inr ⟨nofun, hten, htop, htcnt, hpend⟩
    · have := hcfg top
      simp [hissue] at this
  · exact .inl htimer
  · rw [tickService_off s (.inr hgie)]
    exact .inr ⟨nofun, rfl, rfl, rfl, rfl⟩

/-- With GIE = 0 only a TICK_CLEAR changes TICK. -/
theorem takeTurn_tick_disabled (x : Turn) (hx : x ≠ .powerOn) (s t : State) (hgie : s.gie = false)
    (hclear : (decide (x = .host) && s.aboutToIssue .tickClear) = false) (h : takeTurn x s = .next t) :
    t.tick = s.tick := by
  obtain ⟨rfl, -⟩ | ⟨rfl, hhost⟩ | ⟨-, rfl⟩ | ⟨-, rfl⟩ := takeTurn_cases x hx s t h
  · rfl
  · obtain ⟨-, -, -, -, hkeep | hissue⟩ := hostTurn_tickUnit s t hhost
    · exact hkeep
    · simp [hissue] at hclear
  · rw [timerClk_frame]
  · rw [tickService_off s (.inr hgie)]

/-- One turn of such a run brings the timer as far as its own TIMER turn does: the count and the roll-over that `ts`
then leads to are those of the whole run `x :: ts`. -/
theorem timer_count_step (x : Turn) (ts : List Turn) (s t : State) (hten : s.ten = true) (hlt : s.tcnt < s.top)
    (h : (x = .timerClk ∧ t = timerClk s)
      ∨ (x ≠ .timerClk ∧ t.ten = s.ten ∧ t.top = s.top ∧ t.tcnt = s.tcnt ∧ t.pend = s.pend)) :
    t.ten = true ∧ t.top = s.top
      ∧ (t.tcnt.toNat + ts.count .timerClk) % s.top.toNat
        = (s.tcnt.toNat + (x :: ts).count .timerClk) % s.top.toNat
      ∧ (t.pend || decide (s.top.toNat ≤ t.tcnt.toNat + ts.count .timerClk))
        = (s.pend || decide (s.top.toNat ≤ s.tcnt.toNat + (x :: ts).count .timerClk)) := by
  obtain ⟨rfl, rfl⟩ | ⟨hx, hten', htop, htcnt, hpend⟩ := h
  · obtain ⟨htcnt, hpend⟩ := timerClk_counts s hten hlt
    refine ⟨by rw [timerClk_frame]; exact hten, by rw [timerClk_frame], ?_, ?_⟩
    · rw [htcnt, List.count_cons_self, Nat.mod_add_mod, Nat.add_right_comm, Nat.add_assoc]
    · rw [htcnt, hpend, List.count_cons_self, Bool.or_assoc, ← Bool.decide_or]
      congr 2
      have hlt' : s.tcnt.toNat < s.top.toNat := hlt
      by_cases hroll : s.tcnt.toNat + 1 = s.top.toNat
      · rw [hroll, Nat.mod_self]
        exact propext (by omega)
      · rw [Nat.mod_eq_of_lt (by omega)]
        exact propext (by omega)
  · rw [List.count_cons_of_ne hx, htcnt, hpend]
    exact ⟨hten'.trans hten, htop, rfl, rfl⟩

/-- A run with GIE = 0 that issues neither IE_SET 1 nor TIMER_CFG: what the timer and TICK hold after it. -/
theorem run_disabled (ts : List Turn) (s t : State) (hgie : s.gie = false) (hten : s.ten = true)
    (hlt : s.tcnt < s.top) (hts : ∀ x ∈ ts, x ≠ .powerOn) (hno : issuedIn (.ieSet true) ts s = false)
    (hcfg : ∀ top, issuedIn (.timerCfg top) ts s = false) (hrun : runTurns ts s = .next t) :
    t.tcnt.toNat = (s.tcnt.toNat + ts.count .timerClk) % s.top.toNat
      ∧ t.pend = (s.pend || decide (s.top.toNat ≤ s.tcnt.toNat + ts.count .timerClk))
      ∧ (issuedIn .tickClear ts s = false → t.tick = s.tick) ∧ t.params = s.params := by
  induction ts generalizing s with
  | nil =>
    obtain rfl : s = t := Host.Outcome.next.inj hrun
    have hlt' : s.tcnt.toNat < s.top.toNat := hlt
    simp [Nat.mod_eq_of_lt hlt', Nat.not_le.2 hlt']
  | cons x ts ih =>
    obtain ⟨hx, hrest⟩ := List.forall_mem_cons.1 hts
    obtain ⟨u, hu, hrun⟩ := runTurns_cons_next x ts s t hrun
    simp only [issuedIn_cons _ _ _ _ _ hu, Bool.or_eq_false_iff, forall_and] at hno hcfg ⊢
    obtain ⟨hfirst, hno⟩ := hno
    obtain ⟨hcfgFirst, hcfg⟩ := hcfg
    obtain ⟨hten', htop, htcnt, hpend⟩ := timer_count_step x ts s u hten hlt
      (takeTurn_timer_cases x hx s u hgie hcfgFirst hu)
    have hlt' : u.tcnt < u.top := takeTurn_timerOk x s u hu (fun _ => hlt) hten'
    obtain ⟨htcnt', hpend', htick, hparams⟩ := ih u (takeTurn_gie_false x hx s u hgie hfirst hu) hten' hlt' hrest hno
      hcfg hrun
    rw [htop] at htcnt' hpend'
    exact ⟨htcnt'.trans htcnt, hpend'.trans hpend,
      fun ⟨hclear, hclears⟩ => (htick hclears).trans (takeTurn_tick_disabled x hx s u hgie hclear hu),
      hparams.trans (takeTurn_params x hx s u hu)⟩

/-- Settles O44: the run leaves one pending tick at most, and the service after it advances TICK once. -/
theorem longCriticalSectionLosesTicks : Obligations.LongCriticalSectionLosesTicks := by
  intro ts s t hp hgie hten hlt hts hno hcfg hrun
  obtain ⟨htcnt, hpend, htick, hparams⟩ := run_disabled ts s t hgie hten hlt hts hno hcfg hrun
  refine ⟨htcnt, hpend, noServiceWhileDisabled ts s hgie hts hno, htick, fun hpending => ⟨?_, ?_⟩⟩
  · rw [← hparams]
    exact tickService_tickValue_toNat { t with gie := true } (hparams ▸ hp) ((serviceEnabled_iff _).2 ⟨hpending, rfl⟩)
  · rw [tickService_on { t with gie := true } hpending rfl]

end Sys2Proof.Machine
